-- ==== Sys2Proof/Word.lean ====
section
/-! DEFINITION. The word types of the Monabrel 2440: bytes of the loop and of the table images (R192, R195),
16-bit image fields and record numbers (R179, R195), 32-bit device time and record values (R179, R190). -/

namespace Sys2Proof

/-- One byte of a loop frame, a request, a response or a table entry image (R192 to R195). -/
abbrev Byte := BitVec 8

/-- A two-byte image field, or a record sequence number (R179, R181, R195). -/
abbrev Word16 := BitVec 16

/-- Device time in units of 100 microseconds, or the value field of a record (R179, R190). -/
abbrev Word32 := BitVec 32

/-- A set of bus sections, one bit for each of the sections 0 to 15: bit `s` is set for each section `s` of the
set, as the order image of R193 carries an order's cause set. -/
abbrev SectionSet := BitVec 16

end Sys2Proof
end

