-- ==== Sys2Proof/Syntax.lean ====
section
/-! DEFINITION. The commands of the block: one constructor for each row of spec/opcode_table.json, in the table's
order. A frame command is a good frame (R1, R2) with its fields; a request command is a MGMT_REQUEST frame to
address 0 with its source, tag and the parameter bytes after the request code (R193). -/

namespace Sys2Proof

/-- An event of one channel or point that happens in the handling of a node frame: the index of its entry, and the frame's source,
sequence number and payload (R39, R56, R74). -/
structure FrameEvent where
  index   : Nat
  source  : Byte
  seq     : Byte
  payload : List Byte
  deriving DecidableEq, Repr

/-- One command of the block, one row of spec/opcode_table.json. -/
inductive Instr where
  /-- FRAME_ARRIVAL (R1): the bytes of a frame as received at LOOP_RX, good or not. -/
  | frameArrival (bytes : List Byte)
  /-- SUPERVISION (R14): one of the part's SUPERVISION frames returns. -/
  | supervision
  /-- BEACON (R17): one of the part's BEACON frames returns. -/
  | beacon
  /-- CLAIM (R9): one of the part's CLAIM frames returns with this sequence number and payload. -/
  | claim (seq : Byte) (payload : List Byte)
  /-- CLAIM_TIMER_EXPIRY (R11). -/
  | claimTimerExpiry
  /-- SUPERVISION_SEND_TIMER_EXPIRY (R13). -/
  | supervisionSendTimerExpiry
  /-- SUPERVISION_TIMER_EXPIRY (R15). -/
  | supervisionTimerExpiry
  /-- BEACON_TIMER_EXPIRY (R17). -/
  | beaconTimerExpiry
  /-- SENDING_COMPLETE (R23): the sending of the frame at LOOP_TX completes. -/
  | sendingComplete
  /-- CLAIM_QUEUED_AT_ROOM (R7). -/
  | claimQueuedAtRoom
  /-- HELD_TEST_FRAME_QUEUED (R136). -/
  | heldTestFrameQueued
  /-- HELD_RESPONSE_QUEUED (R168). -/
  | heldResponseQueued
  /-- LIGHT_SAMPLE (R36): a LIGHT_SAMPLE frame to address 0 from a node. -/
  | lightSample (source seq : Byte) (payload : List Byte)
  /-- CURRENT_SAMPLE (R37): a CURRENT_SAMPLE frame to address 0 from a node. -/
  | currentSample (source seq : Byte) (payload : List Byte)
  /-- POSITION (R38): a POSITION frame to address 0 from a node. -/
  | position (source seq : Byte) (payload : List Byte)
  /-- STALE_TIMER_EXPIRY (R32) of a node entry. -/
  | staleTimerExpiry (node : Nat)
  /-- FLICKER_WINDOW_CLOSE (R56) of a channel, in the handling of a LIGHT_SAMPLE frame. -/
  | flickerWindowClose (channel : FrameEvent)
  /-- STRETCH_EXPIRY (R72, R74) of a point, in the handling of a CURRENT_SAMPLE frame. -/
  | stretchExpiry (point : FrameEvent)
  /-- PERSISTENCE_TIMER_EXPIRY (R94) of a section. -/
  | persistenceTimerExpiry (sect : Nat)
  /-- RESEND_TIMER_EXPIRY (R115) of the order on a breaker. -/
  | resendTimerExpiry (breaker : Nat)
  /-- FAILURE_TIMER_EXPIRY (R119) of the order on a breaker. -/
  | failureTimerExpiry (breaker : Nat)
  /-- MINIMUM_PULSE_TIMER_EXPIRY (R124) of a trip line. -/
  | minimumPulseTimerExpiry (line : Nat)
  /-- START_WAIT_TIMER_EXPIRY (R139). -/
  | startWaitTimerExpiry
  /-- TEST_WINDOW_COMPLETE (R138). -/
  | testWindowComplete
  /-- READ_STATUS (R170). -/
  | readStatus (source tag : Byte) (params : List Byte)
  /-- READ_EVENTS (R171). -/
  | readEvents (source tag : Byte) (params : List Byte)
  /-- READ_CHANNEL (R172). -/
  | readChannel (source tag : Byte) (params : List Byte)
  /-- READ_ORDERS (R173). -/
  | readOrders (source tag : Byte) (params : List Byte)
  /-- READ_TABLE (R174). -/
  | readTable (source tag : Byte) (params : List Byte)
  /-- WRITE_SHADOW (R154). -/
  | writeShadow (source tag : Byte) (params : List Byte)
  /-- DISCARD_SHADOW (R155). -/
  | discardShadow (source tag : Byte) (params : List Byte)
  /-- ACTIVATE (R158). -/
  | activate (source tag : Byte) (params : List Byte)
  /-- VALIDATION_COMPLETE (R160). -/
  | validationComplete
  /-- STORE_WRITE_COMPLETE (R188): `agrees` says whether the read-back agreed with the active set. -/
  | storeWriteComplete (agrees : Bool)
  /-- RELEASE (R100). -/
  | release (source tag : Byte) (params : List Byte)
  /-- SET_MAINTENANCE (R99). -/
  | setMaintenance (source tag : Byte) (params : List Byte)
  /-- SET_BLOCK_ON (R97): SET_BLOCK with the value on. -/
  | setBlockOn (source tag sect : Byte)
  /-- SET_BLOCK_OFF (R98): SET_BLOCK with the value off. -/
  | setBlockOff (source tag sect : Byte)
  /-- TEST_LENS (R135). -/
  | testLens (source tag : Byte) (params : List Byte)
  /-- RECLAIM (R175). -/
  | reclaim (source tag : Byte) (params : List Byte)
  /-- SOFT_RESET (R176). -/
  | softReset (source tag : Byte) (params : List Byte)
  /-- UNKNOWN_REQUEST_CODE (R167). -/
  | unknownRequestCode (source tag code : Byte) (params : List Byte)
  /-- SOFT_RESET_TAKES_EFFECT (R177). -/
  | softResetTakesEffect
  /-- SUPPLY_WARNING_FALL (R189). -/
  | supplyWarningFall
  /-- SUPPLY_WARNING_RISE (R189). -/
  | supplyWarningRise
  /-- SUPPLY_DIP_RESET (R190). -/
  | supplyDipReset
  /-- RESETN_LOW (R190). -/
  | resetnLow
  /-- HARD_RESET_END (R190): RESETN is high and the supply stands at `millivolts`. -/
  | hardResetEnd (millivolts : Nat)
  /-- SUPPLY_BELOW_RETENTION (R190). -/
  | supplyBelowRetention
  deriving DecidableEq, Repr

end Sys2Proof
end

