-- ==== Sys2Proof/Config.lean ====
section
/-! DEFINITION. What the part fixes: queue capacities, timer durations, table sizes, supply levels and the fixed
numbers of the layouts; and the one choice the manual leaves open, as a constant with no body. -/

namespace Sys2Proof.Config

/-! Table sizes (R147). -/

/-- Entries of the node table (R147). -/
abbrev nodeCount : Nat := 48
/-- Entries of the channel table (R147). -/
abbrev channelCount : Nat := 96
/-- Entries of the point table (R147). -/
abbrev pointCount : Nat := 24
/-- Entries of the breaker table (R147). -/
abbrev breakerCount : Nat := 24
/-- Entries of the section table (R147). -/
abbrev sectionCount : Nat := 16
/-- Hardwired trip lines TRIP0 to TRIP3 (R124). -/
abbrev lineCount : Nat := 4
/-- Record slots of the Event Pool (R180). -/
abbrev slotCount : Nat := 64

/-! Transmit queue capacities (R22). -/

/-- Capacity of the TRIP queue (R22). -/
abbrev tripCapacity : Nat := 16
/-- Capacity of the CONTROL queue (R22). -/
abbrev controlCapacity : Nat := 4
/-- Capacity of the ROUTINE queue (R22). -/
abbrev routineCapacity : Nat := 4

/-! Timer durations, in device time units of 100 microseconds: every millisecond timer runs from device time
(R190), and one millisecond is ten units. -/

/-- Device time units in `n` milliseconds. -/
abbrev ms (n : Nat) : Nat := 10 * n
/-- Claim timer, 10 ms (R8). -/
abbrev claimTime : Nat := ms 10
/-- Supervision timer, 4 ms (R12, R14). -/
abbrev supervisionTime : Nat := ms 4
/-- Supervision send timer, 1 ms (R12, R13). -/
abbrev supervisionSendTime : Nat := ms 1
/-- Beacon timer, 2 ms (R16, R17). -/
abbrev beaconTime : Nat := ms 2
/-- Persistence timer of a LIGHT episode, 500 ms (R94). -/
abbrev persistenceTime : Nat := ms 500
/-- Resend timer of an order, 2 ms (R115). -/
abbrev resendTime : Nat := ms 2
/-- Minimum-pulse timer of a trip line, 100 ms (R124). -/
abbrev pulseTime : Nat := ms 100
/-- Start wait timer of the lens test, 20 ms (R135). -/
abbrev startWaitTime : Nat := ms 20

/-! Numeric limits. -/

/-- The largest raw or compensated level (R46). -/
abbrev levelMax : Nat := 4095
/-- The largest integrator value, scaled current and order age (R47, R71, R109). -/
abbrev wordMax : Nat := 65535
/-- The smallest live gain, 1.00 (R47). -/
abbrev gainMin : Nat := 256
/-- The largest live gain (R47, R141). -/
abbrev gainMax : Nat := 1023
/-- The scale that stands for 1.0 (R71). -/
abbrev unitScale : Nat := 4096
/-- The most lost samples that are held (R52). -/
abbrev heldMax : Nat := 4
/-- The longest claim list (R6, R9). -/
abbrev claimListMax : Nat := 48
/-- The longest payload of a loop frame (R1, R192). -/
abbrev payloadMax : Nat := 200
/-- The deepest escalation (R111, R120). -/
abbrev depthMax : Nat := 2

/-! Supply levels in millivolts (R189, R190). -/

/-- Warning level, falling (R189). -/
abbrev warningFallMv : Nat := 2950
/-- Warning level, rising (R189). -/
abbrev warningRiseMv : Nat := 3050
/-- Supply-dip reset level (R190). -/
abbrev dipResetMv : Nat := 2700

/-! Fixed numbers of the part (R193). -/

/-- Part code reported by READ_STATUS (R193). -/
abbrev partCode : Nat := 0x2440
/-- Table format number reported by READ_STATUS (R193). -/
abbrev tableFormat : Byte := 1

/-- A bound on how many askings for orders can nest within one event (R120: "every escalation ends within the
event that began it"). Each nested asking has created an order, added a section to a cause set or lowered a depth,
which can happen at most 24 × (1 + 16 + 2) times in a row, so the bound is never reached (`Machine.ask_eq`). Log entry 12. -/
abbrev escalationFuel : Nat := 512

/-- FREE VALUE, log entry 8. When a node's live state changes while the loop is OPEN, the Loop Port recomputes the
cut set and the other neighbours act on the change, and R40 gives no order between them. The `n`-th such event of a run takes
the Loop Port first when `loopPortFirst n` is true. It has no body: a claim holds whichever comes first. -/
opaque loopPortFirst : Nat → Bool

end Sys2Proof.Config
end

