-- ==== Sys2Proof/Machine/State.lean ====
section
/-! DEFINITION. The state of the part, block by block (00_scope.md, Block overview), as plain data; the reasons a
command can stop; and the state at the end of a power-on reset. -/

namespace Sys2Proof.Machine

/-! ## Timers (00_scope.md, Conventions: Timers) -/

/-- A device timer: stopped, or running with the device time units still to run. A running timer with 0 units left
is due: its expiry is the next thing that happens at the block that owns it unless it is stopped or restarted. -/
inductive Timer where
  | stopped
  | running (left : Nat)
  deriving DecidableEq, Repr

/-! ## The five tables (R147 to R153, R195)

Each entry holds its image bytes as written: WRITE_SHADOW stores every byte as given (R154, R195). -/

/-- Node table entry (R149). -/
structure NodeEntry where
  inUse    : Byte
  address  : Byte
  kind     : Byte
  count    : Byte
  position : Byte
  stale    : Byte
  deriving DecidableEq, Repr

/-- Channel table entry (R150). -/
structure ChannelEntry where
  inUse      : Byte
  node       : Byte
  number     : Byte
  sect       : Byte
  threshold  : Word16
  decay      : Word16
  qualify    : Word16
  window     : Word16
  limit      : Byte
  gain0      : Word16
  reference  : Word16
  testWindow : Byte
  deriving DecidableEq, Repr

/-- Point table entry (R151). -/
structure PointEntry where
  inUse   : Byte
  node    : Byte
  number  : Byte
  scale   : Word16
  pickup  : Word16
  stretch : Byte
  deriving DecidableEq, Repr

/-- Breaker table entry (R152): node FFh names no node, line FFh no trip line (R195). -/
structure BreakerEntry where
  inUse     : Byte
  node      : Byte
  number    : Byte
  line      : Byte
  failure   : Word16
  backupLen : Byte
  backup0   : Byte
  backup1   : Byte
  backup2   : Byte
  deriving DecidableEq, Repr

/-- Section table entry (R153): the slots of the two lists are held whole, with their lengths (R195). -/
structure SectionEntry where
  inUse       : Byte
  mode        : Byte
  fallback    : Byte
  boundaryLen : Byte
  boundary    : Vector Byte 8
  confirmLen  : Byte
  confirm     : Vector Byte 6
  deriving DecidableEq, Repr

/-- One table set (R147). -/
structure Tables where
  nodes    : Vector NodeEntry Config.nodeCount
  channels : Vector ChannelEntry Config.channelCount
  points   : Vector PointEntry Config.pointCount
  breakers : Vector BreakerEntry Config.breakerCount
  sections : Vector SectionEntry Config.sectionCount
  deriving DecidableEq, Repr

/-- The entry whose image is all zeros (R147, R195). -/
def NodeEntry.empty : NodeEntry := ⟨0, 0, 0, 0, 0, 0⟩
/-- The entry whose image is all zeros (R147, R195). -/
def ChannelEntry.empty : ChannelEntry := ⟨0, 0, 0, 0, 0, 0, 0, 0, 0, 0, 0, 0⟩
/-- The entry whose image is all zeros (R147, R195). -/
def PointEntry.empty : PointEntry := ⟨0, 0, 0, 0, 0, 0⟩
/-- The entry whose image is all zeros (R147, R195). -/
def BreakerEntry.empty : BreakerEntry := ⟨0, 0, 0, 0, 0, 0, 0, 0, 0⟩
/-- The entry whose image is all zeros (R147, R195). -/
def SectionEntry.empty : SectionEntry := ⟨0, 0, 0, 0, Vector.replicate 8 0, 0, Vector.replicate 6 0⟩

/-- The empty set (R147): every entry not in use, every field at the value whose image is all zeros. -/
def Tables.empty : Tables where
  nodes    := Vector.replicate _ .empty
  channels := Vector.replicate _ .empty
  points   := Vector.replicate _ .empty
  breakers := Vector.replicate _ .empty
  sections := Vector.replicate _ .empty

/-! ## Frames that leave the part (R22, R113, R136, R167) -/

/-- A TRIP frame (R113), tagged with the breaker whose order it belongs to (R22); `age` is the order age in
milliseconds when it was queued. -/
structure TripFrame where
  breaker : Nat
  dest    : Byte
  number  : Byte
  depth   : Nat
  age     : Nat
  deriving DecidableEq, Repr

/-- A TEST frame (R136). -/
structure TestFrame where
  dest   : Byte
  number : Byte
  on     : Bool
  deriving DecidableEq, Repr

/-- Result codes of a response (R169). -/
inductive Result where
  | ok | busy | badRequest | badIndex | unconfigured | refusedState | refusedSole | invalidTables | storeBusy
  deriving DecidableEq, Repr

/-- A MGMT_RESPONSE frame (R167, R193). -/
structure Response where
  dest   : Byte
  tag    : Byte
  code   : Byte
  result : Result
  data   : List Byte
  deriving DecidableEq, Repr

/-- A frame of the CONTROL queue (R22). -/
inductive ControlFrame where
  | supervision
  | beacon
  | claim
  | test (f : TestFrame)
  deriving DecidableEq, Repr

/-- A frame of any queue, as the output arbiter starts it (R23). -/
inductive TxFrame where
  | trip (f : TripFrame)
  | control (f : ControlFrame)
  | response (r : Response)
  deriving DecidableEq, Repr

/-- The frame being sent at LOOP_TX with the output sequence number it took when it started (R5, R23). -/
structure Sending where
  frame : TxFrame
  seq   : Byte
  deriving DecidableEq, Repr

/-! ## Loop Port (R6) -/

/-- Loop state (R6). -/
inductive LoopState where
  | claiming
  | loopClosed
  | loopOpen
  deriving DecidableEq, Repr

/-- Claim result (R6, R10). -/
inductive ClaimResult where
  | noResult
  | matched
  | mismatch (position : Nat)
  | unchecked
  deriving DecidableEq, Repr

/-- The Loop Port's state (R5, R6, R22, R23). -/
structure LoopPort where
  state            : LoopState
  result           : ClaimResult
  claimList        : List Byte
  outstanding      : Option Byte
  claimWaiting     : Bool
  outSeq           : Byte
  breakPos         : Option Nat
  cutSet           : List Nat
  tripQ            : List TripFrame
  controlQ         : List ControlFrame
  routineQ         : List Response
  sending          : Option Sending
  sendTimer        : Timer
  supervisionTimer : Timer
  beaconTimer      : Timer
  claimTimer       : Timer
  deriving DecidableEq, Repr

/-! ## Node Admission (chapter Node Admission and Freshness) -/

/-- Live state of a node record. -/
inductive NodeLive where
  | absent
  | live
  | stale
  deriving DecidableEq, Repr

/-- A node record (R29, R30). -/
structure NodeRec where
  live    : NodeLive
  lastSeq : Option Byte
  timer   : Timer
  deriving DecidableEq, Repr

/-! ## Light Qualifier (R43, R44) -/

/-- Light state (R50). -/
inductive LightState where
  | dark
  | rising
  | lit
  deriving DecidableEq, Repr

/-- Condition of a channel. -/
inductive ChannelCond where
  | normal
  | dirty
  | testing
  | noData
  deriving DecidableEq, Repr

/-- Lens standing: the condition a channel holds whenever it has data and is not under test. -/
inductive Standing where
  | normal
  | dirty
  deriving DecidableEq, Repr

/-- An open flicker window (R55, R56). -/
structure FlickerWindow where
  crossings : Nat
  elapsed   : Nat
  deriving DecidableEq, Repr

/-- A channel record (R44). `pred` is the item "predecessor below threshold": yes, no or none. -/
structure ChannelRec where
  raw      : Option Nat
  comp     : Option Nat
  gain     : Nat
  integ    : Nat
  light    : LightState
  pred     : Option Bool
  window   : Option FlickerWindow
  flicker  : Bool
  eligible : Bool
  cond     : ChannelCond
  standing : Standing
  deriving DecidableEq, Repr

/-! ## Current Confirmation Unit (R68, R69) -/

/-- Condition of a point. -/
inductive PointCond where
  | normal
  | noData
  deriving DecidableEq, Repr

/-- A point record. The confirm flag is set while the stretch counter is above 0 (R74) and is computed from it
(`PointRec.confirm`). -/
structure PointRec where
  stretch : Nat
  cond    : PointCond
  deriving DecidableEq, Repr

/-! ## Section Evaluator (R80) -/

/-- State of a section. -/
inductive SectionState where
  | inactive
  | blocked
  | armed
  | light
  | tripped
  deriving DecidableEq, Repr

/-- A section record (R80). -/
structure SectionRec where
  state         : SectionState
  maintenance   : Bool
  block         : Bool
  persistence   : Timer
  persistentMade    : Bool
  unconfirmableMade : Bool
  deriving DecidableEq, Repr

/-- What the Section Evaluator's view holds of a channel (R80): what its last report under R51 carried. -/
structure ChannelView where
  light    : LightState
  eligible : Bool
  cond     : ChannelCond
  deriving DecidableEq, Repr

/-- What the Section Evaluator's view holds of a point (R80): what its last report under R75 carried. -/
structure PointView where
  confirm : Bool
  cond    : PointCond
  deriving DecidableEq, Repr

/-- The Section Evaluator's state (R80): sixteen section records and the view of every in-use channel and point. -/
structure SectionEvaluator where
  records      : Vector SectionRec Config.sectionCount
  channelViews : Vector (Option ChannelView) Config.channelCount
  pointViews   : Vector (Option PointView) Config.pointCount
  deriving DecidableEq, Repr

/-! ## Trip Dispatcher (R105, R108, R124) -/

/-- Breaker position (R105). -/
inductive Position where
  | atOpen
  | atClosed
  | moving
  | fault
  | unknown
  deriving DecidableEq, Repr

/-- State of an order. -/
inductive OrderState where
  | issued
  | opened
  | failed
  deriving DecidableEq, Repr

/-- An order of the active trip list (the order fields table of chapter Trip Orders and Breaker Failure). `age` counts
device time units since creation; the order age in milliseconds is `Order.ageMs`. -/
structure Order where
  breaker   : Nat
  state     : OrderState
  causes    : SectionSet
  depth     : Nat
  issueTime : Word32
  age       : Nat
  failure   : Timer
  resend    : Timer
  waiting   : Bool
  deriving DecidableEq, Repr

/-- A trip line and its minimum-pulse timer (R124). -/
structure TripLine where
  active : Bool
  pulse  : Timer
  deriving DecidableEq, Repr

/-- The Trip Dispatcher's state: a position for each in-use breaker entry, the active trip list in order of creation,
and the trip lines. -/
structure TripDispatcher where
  positions : Vector (Option Position) Config.breakerCount
  orders    : List Order
  lines     : Vector TripLine Config.lineCount
  deriving DecidableEq, Repr

/-! ## Lens Check Engine (R133) -/

/-- Engine state. -/
inductive EngineState where
  | idle
  | starting
  | measuring
  deriving DecidableEq, Repr

/-- The engine record. -/
structure LensEngine where
  state     : EngineState
  channel   : Option Nat
  peak      : Nat
  count     : Nat
  startWait : Timer
  held      : List TestFrame
  deriving DecidableEq, Repr

/-! ## Event Pool (R179, R180) -/

/-- Record kinds (chapter Event Records, Record kinds). -/
inductive RecordKind where
  | sectionTripped | sectionReleased | orderIssued | orderOpened | orderReissued | orderFailed
  | escalationExhausted | nodeStale | nodeLive | nodeResync | loopState | claimResult | lightPersistent
  | lightUnconfirmable | maintenanceChange | blockChange | flickerOn | flickerOff | positionChange | lensResult
  | tablesActivated | storeResult | supplyLow | supplyOk | reset
  deriving DecidableEq, Repr

/-- Record categories (R179). -/
inductive Category where
  | trip
  | alarm
  | notice
  deriving DecidableEq, Repr

/-- A record as its maker hands it to the Event Pool (R179): all but the sequence number and the device time. -/
structure RecordBody where
  kind     : RecordKind
  category : Category
  sect     : Option Nat := none
  channel  : Option Nat := none
  point    : Option Nat := none
  breaker  : Option Nat := none
  node     : Option Nat := none
  value    : Option Word32 := none
  deriving DecidableEq, Repr

/-- A record (R179). -/
structure Record where
  seq  : Word16
  time : Word32
  body : RecordBody
  deriving DecidableEq, Repr

/-- A slot of a chain: its number and the record it holds (R180). -/
structure Slot where
  number : Nat
  record : Record
  deriving DecidableEq, Repr

/-- The Event Pool's state (R180). -/
structure EventPool where
  tripChain        : List Slot
  generalChain     : List Slot
  free             : List Nat
  nextSeq          : Word16
  tripTruncated    : Bool
  generalTruncated : Bool
  deriving DecidableEq, Repr

/-! ## Management Agent (R148, R166) -/

/-- Device mode (R164). -/
inductive DeviceMode where
  | unconfigured
  | protecting
  deriving DecidableEq, Repr

/-- Agent state (R148). -/
inductive AgentState where
  | idle
  | validating
  deriving DecidableEq, Repr

/-- The pending activation: the tag and source address of one ACTIVATE (R148). -/
structure PendingActivation where
  tag    : Byte
  source : Byte
  deriving DecidableEq, Repr

/-- The Management Agent's state (R148, R166). -/
structure Agent where
  mode             : DeviceMode
  active           : Tables
  shadow           : Tables
  state            : AgentState
  activation       : Option PendingActivation
  disturbed        : Bool
  held             : List Response
  softResetPending : Bool
  deriving DecidableEq, Repr

/-! ## Setting Store, Supply Monitor (R187 to R190) -/

/-- Store state (R187, R188). -/
inductive StoreState where
  | invalid
  | valid
  | writing
  | failed
  deriving DecidableEq, Repr

/-- The Setting Store: the store state, the valid marker and the stored image. -/
structure SettingStore where
  state  : StoreState
  marker : Bool
  image  : Tables
  deriving DecidableEq, Repr

/-- Reset cause (R190). -/
inductive ResetCause where
  | powerOn
  | supplyDip
  | pin
  | soft
  deriving DecidableEq, Repr

/-- The Supply Monitor's two items (R189, R190). -/
structure SupplyMonitor where
  low   : Bool
  cause : ResetCause
  deriving DecidableEq, Repr

/-- A hard reset in progress (R190): whether the supply has been below 2.70 V, and below the retention level, at any
moment of it. -/
structure HardReset where
  dipped         : Bool
  belowRetention : Bool
  deriving DecidableEq, Repr

/-! ## The part -/

/-- The state of the part. `hardReset` is `none` outside a hard reset. `draws` is the MODEL's own field, not the
spec's: how many of the order choices that the manual leaves open have been taken (Config.loopPortFirst, log entry 8).
`pending` holds the commands that are waiting, first in, first out. -/
structure State where
  loop       : LoopPort
  nodes      : Vector (Option NodeRec) Config.nodeCount
  channels   : Vector (Option ChannelRec) Config.channelCount
  points     : Vector (Option PointRec) Config.pointCount
  sections   : SectionEvaluator
  trip       : TripDispatcher
  lens       : LensEngine
  pool       : EventPool
  agent      : Agent
  store      : SettingStore
  supply     : SupplyMonitor
  deviceTime : Word32
  hardReset  : Option HardReset
  draws      : Nat
  pending    : List Instr
  deriving DecidableEq, Repr

/-- Reasons for which the block stops with a fault: there are none. The manual gives every command an effect, a refusal
answered in a response, or no effect at all, and each of these is a next state. -/
inductive Fault where
  deriving DecidableEq, Repr

/-- Reasons for which the model has no meaning for a command. -/
inductive Refusal where
  /-- Raised by `exec` alone, in the arm of a command whose meaning is not written yet (safe: nothing is claimed of
  it). No arm raises it now. -/
  | notModelled (mnemonic : String)
  deriving DecidableEq, Repr

/-! ## Reset values -/

/-- The section record after a hard reset in UNCONFIGURED mode (R81). -/
def SectionRec.resetInactive : SectionRec := ⟨.inactive, false, false, .stopped, false, false⟩

/-- A trip line after a hard reset (R128). -/
def TripLine.reset : TripLine := ⟨false, .stopped⟩

/-- The Lens Check Engine after either reset (R133). -/
def LensEngine.reset : LensEngine := ⟨.idle, none, 0, 0, .stopped, []⟩

/-- The Event Pool after a hard reset, before the RESET record (R180). -/
def EventPool.empty : EventPool := ⟨[], [], List.range Config.slotCount, 0, false, false⟩

/-- The Loop Port's values after a hard reset, before it enters CLAIMING (R6). -/
def LoopPort.reset : LoopPort where
  state            := .claiming
  result           := .noResult
  claimList        := []
  outstanding      := none
  claimWaiting     := false
  outSeq           := 0
  breakPos         := none
  cutSet           := []
  tripQ            := []
  controlQ         := []
  routineQ         := []
  sending          := none
  sendTimer        := .stopped
  supervisionTimer := .stopped
  beaconTimer      := .stopped
  claimTimer       := .stopped

/-- The machine right after a power-on reset with a supply above 3.05 V and a store whose valid marker is clear (log
entry 1): UNCONFIGURED with both sets empty (R148, R187), the RESET record with the cause POWER_ON alone in slot 0
(R185), and CLAIMING entered with its CLAIM frame already started, since the output was idle (R6, R7, R8, R23). -/
def State.reset : State where
  loop := { LoopPort.reset with
    outstanding := some 0
    outSeq      := 1
    sending     := some ⟨.control .claim, 0⟩ }
  nodes    := Vector.replicate _ none
  channels := Vector.replicate _ none
  points   := Vector.replicate _ none
  sections := ⟨Vector.replicate _ .resetInactive, Vector.replicate _ none, Vector.replicate _ none⟩
  trip     := ⟨Vector.replicate _ none, [], Vector.replicate _ .reset⟩
  lens     := .reset
  pool     := { EventPool.empty with
    generalChain := [⟨0, ⟨0, 0, { kind := .reset, category := .notice, value := some 1 }⟩⟩]
    free         := (List.range Config.slotCount).tail
    nextSeq      := 1 }
  agent    := ⟨.unconfigured, .empty, .empty, .idle, none, false, [], false⟩
  store    := ⟨.invalid, false, .empty⟩
  supply   := ⟨false, .powerOn⟩
  deviceTime := 0
  hardReset  := none
  draws      := 0
  pending    := []

end Sys2Proof.Machine
end

