-- ==== Sys2Proof/Machine/Operands.lean ====
section
/-! DEFINITION. Every byte layout: loop frames and their CRC (R1, R2, R192), the payloads of node frames (R27, R36 to
R38), entry images (R195), record images (R194), response payloads (R193); and the reading of table entries. -/

namespace Sys2Proof.Machine

/-! ## Words: multi-byte fields are most significant byte first -/

/-- The two-byte field with high byte `hi` and low byte `lo`. -/
def word (hi lo : Byte) : Word16 := hi ++ lo

/-- The bytes of a two-byte field, most significant first. -/
def wordBytes (w : Word16) : List Byte := [w.extractLsb' 8 8, w.extractLsb' 0 8]

/-- The bytes of a four-byte field, most significant first. -/
def word32Bytes (w : Word32) : List Byte :=
  [w.extractLsb' 24 8, w.extractLsb' 16 8, w.extractLsb' 8 8, w.extractLsb' 0 8]

/-- A natural number as a byte. -/
def byte (n : Nat) : Byte := BitVec.ofNat 8 n

/-- A marker as a byte: 00h clear or off, 01h set or on. -/
def flagByte (b : Bool) : Byte := if b then 1 else 0

/-- The list `l` cut into whole pieces of `n` bytes; what is left over is dropped. -/
def pieces (n : Nat) (l : List Byte) : List (List Byte) :=
  (List.range (l.length / n)).map fun i => (l.drop (i * n)).take n

/-! ## CRC (R2, R192) -/

/-- One bit fed into the CRC register, polynomial 1021h (R192). -/
def crcBit (r : Word16) (b : Bool) : Word16 :=
  if r.msb != b then (r <<< 1) ^^^ 0x1021 else r <<< 1

/-- One byte fed most significant bit first (R192). -/
def crcByte (r : Word16) (b : Byte) : Word16 :=
  [7, 6, 5, 4, 3, 2, 1, 0].foldl (fun r i => crcBit r (b.getLsbD i)) r

/-- The CRC of a list of bytes, the register preset to FFFFh and sent without inversion (R192). -/
def crc16 (bytes : List Byte) : Word16 := bytes.foldl crcByte 0xFFFF

/-! ## Loop frames (R1, R2, R192) -/

/-- A good frame's fields (R192). -/
structure Frame where
  dest    : Byte
  source  : Byte
  kind    : Byte
  seq     : Byte
  payload : List Byte
  deriving DecidableEq, Repr

/-- The header and payload bytes of a frame (R192). -/
def Frame.body (f : Frame) : List Byte :=
  f.dest :: f.source :: f.kind :: f.seq :: byte f.payload.length :: f.payload

/-- The bytes of a frame as they go over the loop, the CRC last and high byte first (R192). -/
def Frame.bytes (f : Frame) : List Byte := f.body ++ wordBytes (crc16 f.body)

/-- The two bytes of a received CRC agree with the computed one (R2). -/
def crcAgrees (received : List Byte) (computed : Word16) : Bool := received == wordBytes computed

/-- The good frame that received bytes are, or none when R1 discards them for their length or R2 for their CRC. -/
def frameOf : List Byte → Option Frame
  | d :: s :: k :: q :: n :: rest =>
    if 2 ≤ rest.length ∧ n.toNat ≤ Config.payloadMax ∧ rest.length - 2 = n.toNat then
      let payload := rest.take n.toNat
      if crcAgrees (rest.drop n.toNat) (crc16 (d :: s :: k :: q :: n :: payload)) then
        some ⟨d, s, k, q, payload⟩
      else none
    else none
  | _ => none

/-- The kind codes of the frames that reach the part (R192). -/
inductive FrameKind where
  | lightSample | currentSample | position | trip | test | supervision | beacon | claim | request | response
  deriving DecidableEq, Repr

/-- Kind codes (R192). -/
def FrameKind.code : FrameKind → Byte
  | .lightSample => 0x10 | .currentSample => 0x11 | .position => 0x12 | .trip => 0x20 | .test => 0x21
  | .supervision => 0x30 | .beacon => 0x31 | .claim => 0x32 | .request => 0x40 | .response => 0x41

/-- The kind a code names, or none for any other kind code (R3, R4, R192). -/
def FrameKind.ofCode (c : Byte) : Option FrameKind :=
  [.lightSample, .currentSample, .position, .trip, .test, .supervision, .beacon, .claim, .request, .response].find?
    fun k => k.code = c

/-! ## Payloads of node frames (R192) -/

/-- The channel words of a LIGHT_SAMPLE payload after its count: raw level in bits 11 to 0, test-active flag in bit 15. -/
def lightSamples : List Byte → List (Nat × Bool)
  | hi :: lo :: rest =>
    (((word hi lo).extractLsb' 0 12).toNat, (word hi lo).getLsbD 15) :: lightSamples rest
  | _ => []

/-- The three phase magnitudes of one point. -/
structure Phases where
  m1 : Nat
  m2 : Nat
  m3 : Nat
  deriving DecidableEq, Repr

/-- The points of a CURRENT_SAMPLE payload after its count. -/
def currentSamples : List Byte → List Phases
  | a :: b :: c :: d :: e :: f :: rest =>
    ⟨(word a b).toNat, (word c d).toNat, (word e f).toNat⟩ :: currentSamples rest
  | _ => []

/-- Position codes (R192): records and responses use 00h for UNKNOWN. -/
def Position.code : Position → Byte
  | .unknown => 0 | .atOpen => 1 | .atClosed => 2 | .moving => 3 | .fault => 4

/-- The position a node's byte reports: none for a byte that fails the admission test (R27, R192). -/
def Position.ofCode (b : Byte) : Option Position :=
  [Position.atOpen, .atClosed, .moving, .fault].find? fun p => p.code = b

/-- The positions of a POSITION payload after its count; none when some byte names no position (R27). -/
def positionCodes (bytes : List Byte) : Option (List Position) := bytes.mapM Position.ofCode

/-! ## Frames that leave the part (R192, R193) -/

/-- Result codes (R193). -/
def Result.code : Result → Byte
  | .ok => 0 | .busy => 1 | .badRequest => 2 | .badIndex => 3 | .unconfigured => 4
  | .refusedState => 5 | .refusedSole => 6 | .invalidTables => 7 | .storeBusy => 8

/-- The payload of a response (R193). -/
def Response.payload (r : Response) : List Byte := r.tag :: r.code :: r.result.code :: r.data

/-- Kind of a frame the part sends (R192). -/
def TxFrame.kind : TxFrame → FrameKind
  | .trip _ => .trip
  | .control .supervision => .supervision
  | .control .beacon => .beacon
  | .control .claim => .claim
  | .control (.test _) => .test
  | .response _ => .response

/-- Destination of a frame the part sends (R192). -/
def TxFrame.dest : TxFrame → Byte
  | .trip f => f.dest
  | .control (.test f) => f.dest
  | .control _ => 0
  | .response r => r.dest

/-- Payload of a frame the part sends (R192): a CLAIM leaves with count 0. -/
def TxFrame.payload : TxFrame → List Byte
  | .trip f => f.number :: byte f.depth :: wordBytes (BitVec.ofNat 16 f.age)
  | .control .supervision => []
  | .control .beacon => []
  | .control .claim => [0]
  | .control (.test f) => [f.number, flagByte f.on]
  | .response r => r.payload

/-- The loop frame that is being sent at LOOP_TX: source 0, the sequence number taken at its start (R5, R192). -/
def Sending.toFrame (x : Sending) : Frame :=
  ⟨x.frame.dest, 0, x.frame.kind.code, x.seq, x.frame.payload⟩

/-! ## Codes reported to the station (R193, R194) -/

/-- Claim result codes (R193). -/
def ClaimResult.code : ClaimResult → Byte
  | .noResult => 0 | .matched => 1 | .mismatch _ => 2 | .unchecked => 3

/-- The mismatch position, 0 for any result but MISMATCH (R193). -/
def ClaimResult.position : ClaimResult → Nat
  | .mismatch p => p
  | _ => 0

/-- Loop state codes (R193). -/
def LoopState.code : LoopState → Byte
  | .claiming => 1 | .loopClosed => 2 | .loopOpen => 3

/-- Reset cause codes (R193). -/
def ResetCause.code : ResetCause → Nat
  | .powerOn => 1 | .supplyDip => 2 | .pin => 3 | .soft => 4

/-- Store state codes (R193). -/
def StoreState.code : StoreState → Byte
  | .invalid => 0 | .valid => 1 | .writing => 2 | .failed => 3

/-- Lens engine state codes (R193). -/
def EngineState.code : EngineState → Byte
  | .idle => 0 | .starting => 1 | .measuring => 2

/-- Device mode codes (R193). -/
def DeviceMode.code : DeviceMode → Nat
  | .unconfigured => 0 | .protecting => 1

/-- Agent state codes (R193). -/
def AgentState.code : AgentState → Byte
  | .idle => 0 | .validating => 1

/-- Section state codes, bits 2 to 0 of a section's byte (R193). -/
def SectionState.code : SectionState → Nat
  | .inactive => 0 | .blocked => 1 | .armed => 2 | .light => 3 | .tripped => 4

/-- A section's byte in READ_STATUS: state in bits 2 to 0, maintenance flag bit 6, block flag bit 7 (R193). -/
def SectionRec.statusByte (r : SectionRec) : Byte :=
  byte (r.state.code + (if r.maintenance then 64 else 0) + (if r.block then 128 else 0))

/-- Order state codes (R193). -/
def OrderState.code : OrderState → Nat
  | .issued => 1 | .opened => 2 | .failed => 3

/-- Light state codes (R193). -/
def LightState.code : LightState → Byte
  | .dark => 0 | .rising => 1 | .lit => 2

/-- Condition codes (R193). -/
def ChannelCond.code : ChannelCond → Byte
  | .normal => 0 | .dirty => 1 | .testing => 2 | .noData => 3

/-- Record kind codes (R194). -/
def RecordKind.code : RecordKind → Byte
  | .sectionTripped => 0x01 | .sectionReleased => 0x02 | .orderIssued => 0x03 | .orderOpened => 0x04
  | .orderReissued => 0x05 | .orderFailed => 0x06 | .escalationExhausted => 0x07 | .nodeStale => 0x10
  | .nodeLive => 0x11 | .nodeResync => 0x12 | .loopState => 0x13 | .claimResult => 0x14
  | .lightPersistent => 0x15 | .lightUnconfirmable => 0x16 | .maintenanceChange => 0x17 | .blockChange => 0x18
  | .flickerOn => 0x19 | .flickerOff => 0x1A | .positionChange => 0x1B | .lensResult => 0x1C
  | .tablesActivated => 0x1D | .storeResult => 0x1E | .supplyLow => 0x1F | .supplyOk => 0x20 | .reset => 0x21

/-- Category codes, bits 1 to 0 of byte 7 of a record image (R194). -/
def Category.code : Category → Nat
  | .trip => 0 | .alarm => 1 | .notice => 2

/-- A value field from its bytes v1 and v0 (R194). -/
def value2 (v1 v0 : Nat) : Word32 := BitVec.ofNat 32 (v1 * 256 + v0)

/-- The presence bit of an optional field (R194). -/
def presence (o : Option α) (bit : Nat) : Nat := if o.isSome then 2 ^ bit else 0

/-- An optional one-byte field of a record image: absent when the record does not carry it (R194). -/
def optionalByte (o : Option Nat) : List Byte := (o.map byte).toList

/-- The image of a record (R194). -/
def Record.image (r : Record) : List Byte :=
  wordBytes r.seq ++ word32Bytes r.time ++
    [r.body.kind.code,
     byte (r.body.category.code + presence r.body.sect 2 + presence r.body.channel 3 + presence r.body.point 4 +
       presence r.body.breaker 5 + presence r.body.node 6 + presence r.body.value 7)] ++
    optionalByte r.body.sect ++ optionalByte r.body.channel ++ optionalByte r.body.point ++
    optionalByte r.body.breaker ++ optionalByte r.body.node ++
    (match r.body.value with | some v => word32Bytes v | none => [])

/-! ## Entry images (R195) -/

/-- The five tables (R147). -/
inductive TableId where
  | node | channel | point | breaker | sect
  deriving DecidableEq, Repr

/-- Table codes (R193). -/
def TableId.code : TableId → Nat
  | .node => 1 | .channel => 2 | .point => 3 | .breaker => 4 | .sect => 5

/-- The table a code names (R193). -/
def TableId.ofCode (b : Byte) : Option TableId :=
  [TableId.node, .channel, .point, .breaker, .sect].find? fun t => t.code = b.toNat

/-- Entries of a table (R147). -/
def TableId.size : TableId → Nat
  | .node => Config.nodeCount | .channel => Config.channelCount | .point => Config.pointCount
  | .breaker => Config.breakerCount | .sect => Config.sectionCount

/-- Image length of a table's entries (R195). -/
def TableId.imageLength : TableId → Nat
  | .node => 6 | .channel => 18 | .point => 8 | .breaker => 10 | .sect => 19

/-- A byte of an image, 0 beyond its end (an image is never read beyond its end). -/
def imageByte (image : List Byte) (i : Nat) : Byte := image.getD i 0

/-- A two-byte field of an image. -/
def imageWord (image : List Byte) (i : Nat) : Word16 := word (imageByte image i) (imageByte image (i + 1))

/-- The image of a node entry (R195). -/
def NodeEntry.image (e : NodeEntry) : List Byte := [e.inUse, e.address, e.kind, e.count, e.position, e.stale]

/-- The node entry an image carries (R195). -/
def NodeEntry.ofImage (b : List Byte) : NodeEntry :=
  ⟨imageByte b 0, imageByte b 1, imageByte b 2, imageByte b 3, imageByte b 4, imageByte b 5⟩

/-- The image of a channel entry (R195). -/
def ChannelEntry.image (e : ChannelEntry) : List Byte :=
  [e.inUse, e.node, e.number, e.sect] ++ wordBytes e.threshold ++ wordBytes e.decay ++ wordBytes e.qualify ++
    wordBytes e.window ++ [e.limit] ++ wordBytes e.gain0 ++ wordBytes e.reference ++ [e.testWindow]

/-- The channel entry an image carries (R195). -/
def ChannelEntry.ofImage (b : List Byte) : ChannelEntry :=
  ⟨imageByte b 0, imageByte b 1, imageByte b 2, imageByte b 3, imageWord b 4, imageWord b 6, imageWord b 8,
   imageWord b 10, imageByte b 12, imageWord b 13, imageWord b 15, imageByte b 17⟩

/-- The image of a point entry (R195). -/
def PointEntry.image (e : PointEntry) : List Byte :=
  [e.inUse, e.node, e.number] ++ wordBytes e.scale ++ wordBytes e.pickup ++ [e.stretch]

/-- The point entry an image carries (R195). -/
def PointEntry.ofImage (b : List Byte) : PointEntry :=
  ⟨imageByte b 0, imageByte b 1, imageByte b 2, imageWord b 3, imageWord b 5, imageByte b 7⟩

/-- The image of a breaker entry (R195). -/
def BreakerEntry.image (e : BreakerEntry) : List Byte :=
  [e.inUse, e.node, e.number, e.line] ++ wordBytes e.failure ++ [e.backupLen, e.backup0, e.backup1, e.backup2]

/-- The breaker entry an image carries (R195). -/
def BreakerEntry.ofImage (b : List Byte) : BreakerEntry :=
  ⟨imageByte b 0, imageByte b 1, imageByte b 2, imageByte b 3, imageWord b 4, imageByte b 6, imageByte b 7,
   imageByte b 8, imageByte b 9⟩

/-- The image of a section entry (R195). -/
def SectionEntry.image (e : SectionEntry) : List Byte :=
  [e.inUse, e.mode, e.fallback, e.boundaryLen] ++ e.boundary.toList ++ [e.confirmLen] ++ e.confirm.toList

/-- The section entry an image carries (R195). -/
def SectionEntry.ofImage (b : List Byte) : SectionEntry :=
  ⟨imageByte b 0, imageByte b 1, imageByte b 2, imageByte b 3, Vector.ofFn fun i => imageByte b (4 + i.val),
   imageByte b 12, Vector.ofFn fun i => imageByte b (13 + i.val)⟩

/-! ## Reading the tables

An index outside a table reads the empty entry, which is not in use. -/

/-- The node entry at an index (R147). -/
def Tables.node (t : Tables) (i : Nat) : NodeEntry := (t.nodes[i]?).getD .empty
/-- The channel entry at an index (R147). -/
def Tables.channel (t : Tables) (i : Nat) : ChannelEntry := (t.channels[i]?).getD .empty
/-- The point entry at an index (R147). -/
def Tables.point (t : Tables) (i : Nat) : PointEntry := (t.points[i]?).getD .empty
/-- The breaker entry at an index (R147). -/
def Tables.breaker (t : Tables) (i : Nat) : BreakerEntry := (t.breakers[i]?).getD .empty
/-- The section entry at an index (R147). -/
def Tables.sectionAt (t : Tables) (i : Nat) : SectionEntry := (t.sections[i]?).getD .empty

/-- An in-use marker of 00h means not in use, any other value in use (R195). -/
def markerSet (b : Byte) : Bool := b ≠ 0

/-- The image of an entry of a table (R174, R195). -/
def Tables.image (t : Tables) : TableId → Nat → List Byte
  | .node, i => (t.node i).image
  | .channel, i => (t.channel i).image
  | .point, i => (t.point i).image
  | .breaker, i => (t.breaker i).image
  | .sect, i => (t.sectionAt i).image

/-- The set with one entry of a table replaced by what an image carries (R154). -/
def Tables.write (t : Tables) : TableId → Nat → List Byte → Tables
  | .node, i, b => { t with nodes := t.nodes.setIfInBounds i (.ofImage b) }
  | .channel, i, b => { t with channels := t.channels.setIfInBounds i (.ofImage b) }
  | .point, i, b => { t with points := t.points.setIfInBounds i (.ofImage b) }
  | .breaker, i, b => { t with breakers := t.breakers.setIfInBounds i (.ofImage b) }
  | .sect, i, b => { t with sections := t.sections.setIfInBounds i (.ofImage b) }

/-- The node kinds (R149) with their codes (R195). -/
inductive NodeKind where
  | light | current | breaker
  deriving DecidableEq, Repr

/-- Node kind codes (R195). -/
def NodeKind.code : NodeKind → Byte
  | .light => 1 | .current => 2 | .breaker => 3

/-- Section mode codes (R195). -/
inductive SectionMode where
  | normal | lightOnly | disabled
  deriving DecidableEq, Repr

/-- The mode a section entry names, none for a code that names none (R195). -/
def SectionEntry.modeOf (e : SectionEntry) : Option SectionMode :=
  if e.mode = 1 then some .normal else if e.mode = 2 then some .lightOnly else if e.mode = 3 then some .disabled
  else none

/-- The fallback is LIGHT_ONLY (02h); 01h is HOLD (R195). -/
def SectionEntry.fallbackLightOnly (e : SectionEntry) : Bool := e.fallback = 2

/-- The boundary list, in order (R153, R195): slots at or beyond the length are no part of it. -/
def SectionEntry.boundaryList (e : SectionEntry) : List Nat :=
  (e.boundary.toList.take e.boundaryLen.toNat).map BitVec.toNat

/-- The confirm list (R153, R195). -/
def SectionEntry.confirmList (e : SectionEntry) : List Nat :=
  (e.confirm.toList.take e.confirmLen.toNat).map BitVec.toNat

/-- The backup list, in order (R152, R195). -/
def BreakerEntry.backupList (e : BreakerEntry) : List Nat :=
  ([e.backup0, e.backup1, e.backup2].take e.backupLen.toNat).map BitVec.toNat

/-- The node entry a breaker entry names: none for FFh (R195). -/
def BreakerEntry.nodeOf (e : BreakerEntry) : Option Nat := if e.node = 0xFF then none else some e.node.toNat

/-- The trip line a breaker entry names: none for FFh (R152, R195). -/
def BreakerEntry.lineOf (e : BreakerEntry) : Option Nat := if e.line = 0xFF then none else some e.line.toNat

/-- The section a channel entry names: none for FFh (R150, R195). -/
def ChannelEntry.sectOf (e : ChannelEntry) : Option Nat := if e.sect = 0xFF then none else some e.sect.toNat

end Sys2Proof.Machine
end

