-- ==== Sys2Proof/Machine/Flags.lean ====
section
/-! DEFINITION. What follows from the state at any moment and is computed from it: light state, eligibility, the confirm
flag, order age in milliseconds, the sections of a cause set, and the SYSOK line. -/

namespace Sys2Proof.Machine

/-- A timer runs. -/
def Timer.isRunning : Timer → Bool
  | .stopped => false
  | .running _ => true

/-- A running timer whose duration has run out. -/
def Timer.isDue : Timer → Bool
  | .running 0 => true
  | _ => false

/-- The light state after a processed sample, from the new integrator value (R50). -/
def lightAfter (integ qualify : Nat) (before : LightState) : LightState :=
  if integ = 0 then .dark
  else if qualify ≤ integ then .lit
  else if before = .lit then .lit else .rising

/-- Light-only eligibility (R59). -/
def eligibleOf (light : LightState) (flicker : Bool) (integ qualify : Nat) : Bool :=
  light = .lit && (!flicker || min Config.wordMax (2 * qualify) ≤ integ)

/-- The confirm flag: set while the stretch counter is above 0 (R74). -/
def PointRec.confirm (r : PointRec) : Bool := 0 < r.stretch

/-- What a channel's report carries (R51). -/
def ChannelRec.view (r : ChannelRec) : ChannelView := ⟨r.light, r.eligible, r.cond⟩

/-- What a point's report carries (R75). -/
def PointRec.view (r : PointRec) : PointView := ⟨r.confirm, r.cond⟩

/-- NORMAL and DIRTY channels contribute; TESTING and NO_DATA do not (R83). -/
def ChannelCond.contributes : ChannelCond → Bool
  | .normal => true | .dirty => true | .testing => false | .noData => false

/-- The condition that a lens standing stands for. -/
def Standing.cond : Standing → ChannelCond
  | .normal => .normal | .dirty => .dirty

/-- An order demands its breaker unopened: ISSUED or FAILED (R114, R124). -/
def Order.unopened (o : Order) : Bool := o.state = .issued || o.state = .failed

/-- Order age in whole milliseconds, saturating at 65535 (R109). -/
def Order.ageMs (o : Order) : Nat := min Config.wordMax (o.age / 10)

/-- A CONTROL frame is a TEST frame: the Lens Check Engine queued it, and no entry to a loop state withdraws it (R22, R25). -/
def ControlFrame.isTest : ControlFrame → Bool
  | .test _ => true
  | .supervision => false
  | .beacon => false
  | .claim => false

/-- The set that holds one section. -/
def sectionSet (i : Nat) : SectionSet := BitVec.ofNat 16 (2 ^ i)

/-- The lowest-numbered section of a cause set. -/
def lowestSection (c : SectionSet) : Option Nat := (List.range Config.sectionCount).find? fun i => c.getLsbD i

/-- Every in-use node entry of the active node table has its node LIVE (R191). -/
def State.allNodesLive (s : State) : Bool :=
  (List.range Config.nodeCount).all fun i =>
    !markerSet (s.agent.active.node i).inUse ||
      (match (s.nodes[i]?).join with | some r => r.live = .live | none => false)

/-- Some section's state is BLOCKED (R191). -/
def State.anyBlocked (s : State) : Bool := s.sections.records.toList.any fun r => r.state = .blocked

/-- The SYSOK line (R191): active while its five conditions hold, and inactive during a hard reset (R190). -/
def State.sysok (s : State) : Bool :=
  s.hardReset = none && s.agent.mode = .protecting && s.loop.state = .loopClosed && s.loop.result = .matched &&
    s.allNodesLive && !s.anyBlocked && !s.supply.low

end Sys2Proof.Machine
end

