-- ==== Sys2Proof/Machine/Ops.lean ====
section
/-! DEFINITION. The operations that several blocks share: reading and writing the records of State, the Event Pool
(R181 to R184), the transmit queues and the output arbiter (R22 to R25), and the active trip list as a list. -/

namespace Sys2Proof.Machine

/-! ## Reading and writing records

An index outside its table holds no record; a write there changes nothing. -/

/-- The active table set, which every block reads at the moment it uses a field (R147). -/
def State.tables (s : State) : Tables := s.agent.active

/-- The node record of a node entry. -/
def State.node (s : State) (i : Nat) : Option NodeRec := (s.nodes[i]?).join

/-- The channel record of a channel entry (R43). -/
def State.channel (s : State) (i : Nat) : Option ChannelRec := (s.channels[i]?).join

/-- The point record of a point entry (R68). -/
def State.point (s : State) (i : Nat) : Option PointRec := (s.points[i]?).join

/-- The position in the breaker record of a breaker entry (R105). -/
def State.position (s : State) (b : Nat) : Option Position := (s.trip.positions[b]?).join

/-- A section record (R80). -/
def State.sectionRec (s : State) (i : Nat) : SectionRec := (s.sections.records[i]?).getD .resetInactive

/-- A trip line (R124). -/
def State.line (s : State) (l : Nat) : TripLine := (s.trip.lines[l]?).getD .reset

/-- What the view holds of a channel (R80). -/
def State.channelView (s : State) (i : Nat) : Option ChannelView := (s.sections.channelViews[i]?).join

/-- What the view holds of a point (R80). -/
def State.pointView (s : State) (i : Nat) : Option PointView := (s.sections.pointViews[i]?).join

/-- Replace a node record. -/
def State.setNode (s : State) (i : Nat) (r : NodeRec) : State :=
  { s with nodes := s.nodes.setIfInBounds i (some r) }

/-- Replace a channel record. -/
def State.setChannel (s : State) (i : Nat) (r : ChannelRec) : State :=
  { s with channels := s.channels.setIfInBounds i (some r) }

/-- Replace a point record. -/
def State.setPoint (s : State) (i : Nat) (r : PointRec) : State :=
  { s with points := s.points.setIfInBounds i (some r) }

/-- Replace the position in a breaker record. -/
def State.setPosition (s : State) (b : Nat) (p : Position) : State :=
  { s with trip := { s.trip with positions := s.trip.positions.setIfInBounds b (some p) } }

/-- Replace a section record. -/
def State.setSection (s : State) (i : Nat) (r : SectionRec) : State :=
  { s with sections := { s.sections with records := s.sections.records.setIfInBounds i r } }

/-- Replace a trip line. -/
def State.setLine (s : State) (l : Nat) (x : TripLine) : State :=
  { s with trip := { s.trip with lines := s.trip.lines.setIfInBounds l x } }

/-- Replace what the view holds of a channel (R83). -/
def State.setChannelView (s : State) (i : Nat) (v : ChannelView) : State :=
  { s with sections := { s.sections with channelViews := s.sections.channelViews.setIfInBounds i (some v) } }

/-- Replace what the view holds of a point (R84). -/
def State.setPointView (s : State) (i : Nat) (v : PointView) : State :=
  { s with sections := { s.sections with pointViews := s.sections.pointViews.setIfInBounds i (some v) } }

/-- Replace the Loop Port's state. -/
def State.setLoop (s : State) (l : LoopPort) : State := { s with loop := l }

/-- Replace the active trip list. -/
def State.setOrders (s : State) (os : List Order) : State := { s with trip := { s.trip with orders := os } }

/-- The node of a node entry is LIVE. -/
def State.nodeLive (s : State) (i : Nat) : Bool :=
  match s.node i with
  | some r => r.live = .live
  | none => false

/-! ## The Event Pool -/

/-- The pool takes a record handed over at a device time: it takes the next sequence number (R181) and is placed in its
chain (R182, R183), in the place of the oldest GENERAL record (R183), or dropped, with the truncated marker set. -/
def EventPool.take (p : EventPool) (time : Word32) (b : RecordBody) : EventPool :=
  let rec' : Record := ⟨p.nextSeq, time, b⟩
  let p := { p with nextSeq := p.nextSeq + 1 }
  match b.category, p.free, p.generalChain with
  | .trip, n :: free, _ => { p with free := free, tripChain := p.tripChain ++ [⟨n, rec'⟩] }
  | .trip, [], oldest :: general =>
    { p with
      generalChain := general
      generalTruncated := true
      tripChain := p.tripChain ++ [⟨oldest.number, rec'⟩] }
  | .trip, [], [] => { p with tripTruncated := true }
  | _, n :: free, general => { p with free := free, generalChain := general ++ [⟨n, rec'⟩] }
  | _, [], _ => { p with generalTruncated := true }

/-- The chains of the pool, as READ_EVENTS names them (R171). -/
inductive Chain where
  | trip
  | general
  deriving DecidableEq, Repr

/-- A chain of the pool. -/
def EventPool.chain (p : EventPool) : Chain → List Slot
  | .trip => p.tripChain
  | .general => p.generalChain

/-- A chain's truncated marker. -/
def EventPool.truncated (p : EventPool) : Chain → Bool
  | .trip => p.tripTruncated
  | .general => p.generalTruncated

/-- READ_EVENTS removes the oldest `n` records of a chain: their slots join the tail of the free list in the same
order, and the chain's truncated marker is cleared (R171, R184). -/
def EventPool.remove (p : EventPool) (c : Chain) (n : Nat) : EventPool :=
  let freed := ((p.chain c).take n).map Slot.number
  match c with
  | .trip => { p with tripChain := p.tripChain.drop n, free := p.free ++ freed, tripTruncated := false }
  | .general => { p with generalChain := p.generalChain.drop n, free := p.free ++ freed, generalTruncated := false }

/-- A record is made: the block hands it to the Event Pool, at the device time of the event (R179). -/
def State.record (s : State) (b : RecordBody) : State :=
  { s with pool := s.pool.take s.deviceTime b }

/-! ## The active trip list as a list (R108) -/

/-- The order on a breaker, if the list holds one. -/
def State.order (s : State) (b : Nat) : Option Order := s.trip.orders.find? fun o => o.breaker = b

/-- Change the order on a breaker in its place; the others stand as they are. -/
def State.updateOrder (s : State) (b : Nat) (f : Order → Order) : State :=
  s.setOrders (s.trip.orders.map fun o => if o.breaker = b then f o else o)

/-- The order of a breaker no longer has a waiting copy (R23, R25). -/
def State.clearWaiting (s : State) (b : Nat) : State := s.updateOrder b fun o => { o with waiting := false }

/-! ## Transmit queues and the output arbiter -/

/-- The CONTROL queue holds fewer frames than its capacity (R22). -/
def State.controlRoom (s : State) : Bool := s.loop.controlQ.length < Config.controlCapacity

/-- The TRIP queue holds fewer frames than its capacity (R22). -/
def State.tripRoom (s : State) : Bool := s.loop.tripQ.length < Config.tripCapacity

/-- The ROUTINE queue holds fewer frames than its capacity (R22). -/
def State.routineRoom (s : State) : Bool := s.loop.routineQ.length < Config.routineCapacity

/-- A frame starts: it takes the output sequence number, which advances by one (R5). -/
def LoopPort.start (l : LoopPort) (f : TxFrame) : LoopPort :=
  { l with sending := some ⟨f, l.outSeq⟩, outSeq := l.outSeq + 1 }

/-- The arbiter starts the head of the TRIP queue, else of the CONTROL queue, else of the ROUTINE queue; with all three
empty the output becomes idle (R23). A TRIP frame's start clears its order's waiting copy (R23); the start of the current
claim's CLAIM frame sets the outstanding claim number (R8). -/
def State.startNext (s : State) : State :=
  match s.loop.tripQ, s.loop.controlQ, s.loop.routineQ with
  | f :: rest, _, _ => (s.setLoop ({ s.loop with tripQ := rest }.start (.trip f))).clearWaiting f.breaker
  | [], .claim :: rest, _ =>
    s.setLoop { { s.loop with controlQ := rest }.start (.control .claim) with outstanding := some s.loop.outSeq }
  | [], f :: rest, _ => s.setLoop ({ s.loop with controlQ := rest }.start (.control f))
  | [], [], r :: rest => s.setLoop ({ s.loop with routineQ := rest }.start (.response r))
  | [], [], [] => s.setLoop { s.loop with sending := none }

/-- A frame queued while the output is idle starts at once (R23). -/
def State.startIfIdle (s : State) : State := if s.loop.sending = none then s.startNext else s

/-- A frame is placed at the tail of the CONTROL queue; the enqueuer has found room (R22). -/
def State.pushControl (s : State) (f : ControlFrame) : State :=
  (s.setLoop { s.loop with controlQ := s.loop.controlQ ++ [f] }).startIfIdle

/-- A frame is placed at the tail of the TRIP queue; the enqueuer has found room (R22). -/
def State.pushTrip (s : State) (f : TripFrame) : State :=
  (s.setLoop { s.loop with tripQ := s.loop.tripQ ++ [f] }).startIfIdle

/-- A response is placed at the tail of the ROUTINE queue; the enqueuer has found room (R22). -/
def State.pushRoutine (s : State) (r : Response) : State :=
  (s.setLoop { s.loop with routineQ := s.loop.routineQ ++ [r] }).startIfIdle

/-- The Loop Port withdraws the TRIP frames tagged with a breaker, if they have not started, and tells the Trip
Dispatcher that the order of that breaker has no waiting copy (R25). -/
def State.withdrawTrip (s : State) (b : Nat) : State :=
  (s.setLoop { s.loop with tripQ := s.loop.tripQ.filter fun f => f.breaker ≠ b }).clearWaiting b

/-- While the Management Agent is VALIDATING, an event that R159 names sets validation disturbed. -/
def State.disturb (s : State) : State :=
  if s.agent.state = .validating then { s with agent := { s.agent with disturbed := true } } else s

/-! ## Outcomes -/

/-- A command acts outside a hard reset alone; while one is in progress the part does nothing (R190, log entry 6). -/
def State.outsideReset (f : State → State) (s : State) : State := if s.hardReset.isSome then s else f s

/-- What `exec` answers: no command of the part ends in a fault or a refusal. -/
abbrev Outcome := Host.Outcome State Fault Refusal

end Sys2Proof.Machine
end

