-- ==== Sys2Proof/Machine/Trip.lean ====
section
/-! DEFINITION. The Trip Dispatcher (chapter Trip Orders and Breaker Failure): sending, trip lines, the creation, merging,
failure, escalation, opening, reissue and removal of orders; and its commands. -/

namespace Sys2Proof.Machine

/-! ## What the active set says of a breaker (R105) -/

/-- The trip line a breaker's entry names. -/
def State.lineOf (s : State) (b : Nat) : Option Nat := (s.tables.breaker b).lineOf

/-- A breaker's failure time in device time units (R152). -/
def State.failureTime (s : State) (b : Nat) : Nat := Config.ms (s.tables.breaker b).failure.toNat

/-- The breaker is in the cut set of the Loop Port (R21). -/
def State.isCut (s : State) (b : Nat) : Bool := s.loop.cutSet.contains b

/-- A breaker that is cut and has no trip line: its order fails at once whenever it is ISSUED (R122). -/
def State.cutWithoutLine (s : State) (b : Nat) : Bool := s.isCut b && (s.lineOf b = none)

/-! ## Sending TRIP frames (R113, R114) -/

/-- The TRIP frame of an order on a breaker whose entry names node entry `n` (R113). -/
def State.tripFrame (s : State) (o : Order) (n : Nat) : TripFrame where
  breaker := o.breaker
  dest    := (s.tables.node n).address
  number  := (s.tables.breaker o.breaker).number
  depth   := o.depth
  age     := o.ageMs

/-- A send is attempted for the order on a breaker (R114): a TRIP frame is queued when the order is ISSUED or FAILED, the
breaker's entry names a node, the breaker is not cut, no copy waits and the TRIP queue has room. -/
def State.attemptSend (s : State) (b : Nat) : State :=
  match s.order b, (s.tables.breaker b).nodeOf with
  | some o, some n =>
    if o.unopened && !s.isCut b && !o.waiting && s.tripRoom then
      (s.updateOrder b fun o => { o with waiting := true }).pushTrip (s.tripFrame o n)
    else s
  | _, _ => s

/-! ## Trip lines (R124, R125) -/

/-- An order is held on a line: its breaker's entry names the line and it is ISSUED or FAILED (R124). -/
def State.lineHeld (s : State) (l : Nat) : Bool :=
  s.trip.orders.any fun o => o.unopened && s.lineOf o.breaker = some l

/-- An order becomes held: an inactive line becomes active and its minimum-pulse timer starts; an active line stays as it
is (R124). -/
def State.driveLine (s : State) (b : Nat) : State :=
  match s.lineOf b with
  | some l => if (s.line l).active then s else s.setLine l ⟨true, .running Config.pulseTime⟩
  | none => s

/-- An order stops being held: its line stays active while another order is held on it or while its minimum-pulse timer
runs, and becomes inactive at once otherwise (R124). -/
def State.reconsiderLine (s : State) (b : Nat) : State :=
  match s.lineOf b with
  | some l =>
    if s.lineHeld l || (s.line l).pulse.isRunning then s else s.setLine l { s.line l with active := false }
  | none => s

/-! ## Order records (R132) -/

/-- An order record of the Trip Dispatcher: the breaker and the lowest-numbered section of the cause set (R132). -/
def orderRecord (kind : RecordKind) (o : Order) (value : Word32) : RecordBody :=
  { kind := kind, category := .trip, sect := lowestSection o.causes, breaker := some o.breaker, value := some value }

/-- Reasons of an ORDER_FAILED record (R194). -/
inductive FailReason where
  | timer
  | cut
  deriving DecidableEq, Repr

/-- Codes of the reasons (R194). -/
def FailReason.code : FailReason → Nat
  | .timer => 1 | .cut => 2

/-! ## Creating, merging, failing and escalating orders (R110 to R112, R119, R120, R122)

Asking for an order can fail an order at once (R122), which escalates to further askings (R120); a merge into a FAILED order
repeats its escalation (R112). Each operation takes `ask`, the asking it nests. -/

/-- The order becomes FAILED with its failure timer stopped, and an ORDER_FAILED record is made (R119, R122). -/
def State.markFailed (s : State) (o : Order) (reason : FailReason) : State :=
  (s.updateOrder o.breaker fun o => { o with state := .failed, failure := .stopped }).record
    (orderRecord .orderFailed o (value2 reason.code o.depth))

/-- An order with these causes and depth is asked for on each backup breaker, in list order, each whole before the next
(R120). -/
def State.askBackups (ask : Nat → SectionSet → Nat → State → State) (b : Nat) (causes : SectionSet) (depth : Nat)
    (s : State) : State :=
  (s.tables.breaker b).backupList.foldl (fun s b' => ask b' causes (depth + 1) s) s

/-- The escalation of an order that has become FAILED (R120): its backups, or an ESCALATION_EXHAUSTED record. -/
def State.escalate (ask : Nat → SectionSet → Nat → State → State) (o : Order) (s : State) : State :=
  if Config.depthMax ≤ o.depth then s.record (orderRecord .escalationExhausted o 1)
  else if (s.tables.breaker o.breaker).backupList = [] then s.record (orderRecord .escalationExhausted o 2)
  else s.askBackups ask o.breaker o.causes o.depth

/-- The order on a breaker fails and escalates (R119, R122). -/
def State.failWith (ask : Nat → SectionSet → Nat → State → State) (b : Nat) (reason : FailReason) (s : State) : State :=
  match s.order b with
  | some o => (s.markFailed o reason).escalate ask o
  | none => s

/-- An ISSUED order on a breaker that is cut and has no trip line fails at once (R122). -/
def State.failIfCut (ask : Nat → SectionSet → Nat → State → State) (b : Nat) (s : State) : State :=
  if s.cutWithoutLine b then s.failWith ask b .cut else s

/-- The new order on a breaker at position `p` (R111). -/
def State.newOrder (s : State) (b : Nat) (p : Position) (causes : SectionSet) (depth : Nat) : Order :=
  if p = .atOpen then ⟨b, .opened, causes, depth, s.deviceTime, 0, .stopped, .stopped, false⟩
  else
    ⟨b, .issued, causes, depth, s.deviceTime, 0, .running (s.failureTime b), .running Config.resendTime, false⟩

/-- An order is created at the tail of the list, with its ORDER_ISSUED record; an ISSUED one is sent, drives its line, and
fails at once if its breaker is cut and has no line (R111, R122). Its creation disturbs a validation (R159). -/
def State.createOrder (ask : Nat → SectionSet → Nat → State → State) (b : Nat) (p : Position) (causes : SectionSet)
    (depth : Nat) (s : State) : State :=
  let o := s.newOrder b p causes depth
  let s := ((s.setOrders (s.trip.orders ++ [o])).disturb).record
    (orderRecord .orderIssued o (value2 depth o.state.code))
  if p = .atOpen then s else ((s.attemptSend b).driveLine b).failIfCut ask b

/-- An order after a merge: the union of the cause sets and the smaller depth (R112). -/
def Order.mergeWith (o : Order) (causes : SectionSet) (depth : Nat) : Order :=
  { o with causes := o.causes ||| causes, depth := min o.depth depth }

/-- An asking is merged into the order already on the breaker; the escalation of a FAILED order is repeated when the merge
added a section or lowered the depth and its depth is then below 2 (R112). -/
def State.mergeOrder (ask : Nat → SectionSet → Nat → State → State) (o : Order) (causes : SectionSet) (depth : Nat)
    (s : State) : State :=
  let o' := o.mergeWith causes depth
  let s := s.updateOrder o.breaker fun o => o.mergeWith causes depth
  if o.state = .failed ∧ (o'.causes ≠ o.causes ∨ o'.depth < o.depth) ∧ o'.depth < Config.depthMax then
    s.askBackups ask o.breaker o'.causes o'.depth
  else s

/-- An order is asked for on a breaker (R108, R110, R120): merged into the order on it, or created. A breaker with no record,
which validation keeps out of every list (R157), has no order. The first argument bounds how deep askings nest
(Config.escalationFuel, log entry 12). -/
def askOrder : Nat → Nat → SectionSet → Nat → State → State
  | 0, _, _, _, s => s
  | fuel + 1, b, causes, depth, s =>
    match s.order b, s.position b with
    | some o, _ => s.mergeOrder (askOrder fuel) o causes depth
    | none, some p => s.createOrder (askOrder fuel) b p causes depth
    | none, none => s

/-- An order of the given causes and depth is asked for on a breaker. -/
def State.ask (b : Nat) (causes : SectionSet) (depth : Nat) (s : State) : State :=
  askOrder Config.escalationFuel b causes depth s

/-- The order on a breaker fails for a reason and escalates, complete before the next event (R119, R122). -/
def State.failOrder (b : Nat) (reason : FailReason) (s : State) : State := s.failWith State.ask b reason

/-- The Section Evaluator asks for orders of depth 0 on a section's boundary breakers, in list order, each handled whole
before the next (R89, R110). -/
def State.askBoundary (sect : Nat) (breakers : List Nat) (s : State) : State :=
  breakers.foldl (fun s b => s.ask b (sectionSet sect) 0) s

/-- The Loop Port hands over a breaker that has entered the cut set: an ISSUED order on it fails at once if it has no
trip line (R21, R122). -/
def State.enterCut (s : State) (b : Nat) : State :=
  match s.order b with
  | some o => if o.state = .issued then s.failIfCut State.ask b else s
  | none => s

/-! ## Positions (R106, R107, R116 to R118) -/

/-- The order on a breaker that is now OPEN becomes OPENED (R116). -/
def State.openOrder (s : State) (o : Order) : State :=
  ((s.updateOrder o.breaker fun o => { o with state := .opened, failure := .stopped, resend := .stopped }).record
    (orderRecord .orderOpened o (value2 o.state.code o.depth))).reconsiderLine o.breaker

/-- An OPENED order whose breaker has left OPEN is reissued (R117). -/
def State.reissueOrder (s : State) (o : Order) (p : Position) : State :=
  let s := (s.updateOrder o.breaker fun o =>
    { o with state := .issued, failure := .running (s.failureTime o.breaker) }).record
      (orderRecord .orderReissued o (value2 p.code.toNat o.depth))
  let s := s.updateOrder o.breaker fun o => { o with resend := .running Config.resendTime }
  ((s.attemptSend o.breaker).driveLine o.breaker).failIfCut State.ask o.breaker

/-- The order on a breaker acts on the change of its position (R116 to R118). -/
def State.orderSeesPosition (s : State) (b : Nat) (p : Position) : State :=
  match s.order b with
  | none => s
  | some o =>
    if p = .atOpen then (if o.unopened then s.openOrder o else s)
    else if p ≠ .unknown ∧ o.state = .opened then s.reissueOrder o p
    else s

/-- A position code is delivered for a breaker (R106): a different code replaces the position held, makes a POSITION_CHANGE
record and then reaches the breaker's order. -/
def State.deliverPosition (s : State) (b : Nat) (p : Position) : State :=
  match s.position b with
  | none => s
  | some old =>
    if old = p then s
    else
      ((s.setPosition b p).record
        { kind := .positionChange, category := .notice, breaker := some b,
          value := some (value2 old.code.toNat p.code.toNat) }).orderSeesPosition b p

/-- A breaker of a node that has become STALE takes the position UNKNOWN, with no record (R107). -/
def State.positionUnknown (s : State) (b : Nat) : State :=
  match s.position b with
  | some _ => s.setPosition b .unknown
  | none => s

/-! ## Order and line timers (R115, R119, R124) -/

/-- The resend timer of the order on a breaker expires: it starts again and a send is attempted (R115). -/
def State.resendExpiry (s : State) (b : Nat) : State :=
  match s.order b with
  | some o =>
    if o.resend.isRunning then (s.updateOrder b fun o => { o with resend := .running Config.resendTime }).attemptSend b
    else s
  | none => s

/-- The failure timer of the ISSUED order on a breaker expires (R119). -/
def State.failureExpiry (s : State) (b : Nat) : State :=
  match s.order b with
  | some o => if o.state = .issued ∧ o.failure.isRunning then s.failOrder b .timer else s
  | none => s

/-- A line's minimum-pulse timer expires: the line becomes inactive if no order is held on it (R124). -/
def State.pulseExpiry (s : State) (l : Nat) : State :=
  if (s.line l).pulse.isRunning then
    s.setLine l ⟨(s.line l).active && s.lineHeld l, .stopped⟩
  else s

/-! ## Removal on release (R126) -/

/-- A section is removed from the cause set of the order on a breaker; an order left without a cause is removed, its waiting
copy withdrawn and its line reconsidered (R126). -/
def State.removeCause (sect : Nat) (s : State) (b : Nat) : State :=
  match s.order b with
  | none => s
  | some o =>
    let left := o.causes &&& ~~~ sectionSet sect
    if left = o.causes then s
    else if left = 0 then
      ((s.setOrders (s.trip.orders.filter fun o => o.breaker ≠ b)).withdrawTrip b).reconsiderLine b
    else s.updateOrder b fun o => { o with causes := left }

/-- A released section is removed from every cause set, the orders taken in creation order (R126). -/
def State.removeSection (s : State) (sect : Nat) : State :=
  (s.trip.orders.map Order.breaker).foldl (State.removeCause sect) s

end Sys2Proof.Machine
end

