-- ==== Sys2Proof/Machine/Sections.lean ====
section
/-! DEFINITION. The Section Evaluator (chapter Sections and the Trip Decision): the rule in force, the trip condition, the
evaluation of a section, the reports it takes, its timer, and the requests on sections. -/

namespace Sys2Proof.Machine

/-! ## What the active set says of a section -/

/-- A section's entry in the active section table (R153). -/
def State.sectionEntry (s : State) (i : Nat) : SectionEntry := s.tables.sectionAt i

/-- The section is INACTIVE whatever its record holds: the device is UNCONFIGURED, its entry is not in use, or its mode is
DISABLED (R81, R87). A mode byte that names no mode, which validation refuses, takes no part either. -/
def State.sectionInactive (s : State) (i : Nat) : Bool :=
  s.agent.mode = .unconfigured || !markerSet (s.sectionEntry i).inUse ||
    !((s.sectionEntry i).modeOf = some .normal || (s.sectionEntry i).modeOf = some .lightOnly)

/-! ## Contributing channels, the rule in force and the trip condition (R83, R85, R86) -/

/-- The channel is in use and its entry names the section (R83). -/
def State.channelOf (s : State) (i c : Nat) : Bool :=
  markerSet (s.tables.channel c).inUse && ((s.tables.channel c).sectOf = some i)

/-- A property of what the view holds of a channel, false of one that has left the view. -/
def State.viewed (s : State) (c : Nat) (p : ChannelView → Bool) : Bool :=
  match s.channelView c with
  | some v => p v
  | none => false

/-- The channel is a contributing channel of the section (R83). -/
def State.contributes (s : State) (i c : Nat) : Bool := s.channelOf i c && s.viewed c fun v => v.cond.contributes

/-- The channel is contributing and LIT in the view. -/
def State.litIn (s : State) (i c : Nat) : Bool :=
  s.contributes i c && s.viewed c fun v => v.light = .lit

/-- The channel is contributing and eligible in the view. -/
def State.eligibleIn (s : State) (i c : Nat) : Bool :=
  s.contributes i c && s.viewed c fun v => v.eligible

/-- The confirm flag of a point is set in the view. -/
def State.flagged (s : State) (p : Nat) : Bool :=
  match s.pointView p with
  | some v => v.confirm
  | none => false

/-- The point is NORMAL in the view: it has data (R85). -/
def State.pointHasData (s : State) (p : Nat) : Bool :=
  match s.pointView p with
  | some v => v.cond = .normal
  | none => false

/-- The lowest-indexed contributing channel of a section that is LIT in the view. -/
def State.lowestLit (s : State) (i : Nat) : Option Nat := (List.range Config.channelCount).find? (s.litIn i)

/-- The lowest-indexed contributing channel of a section that is eligible in the view. -/
def State.lowestEligible (s : State) (i : Nat) : Option Nat := (List.range Config.channelCount).find? (s.eligibleIn i)

/-- The lowest-indexed point of a section's confirm list whose flag is set in the view. -/
def State.lowestFlagged (s : State) (i : Nat) : Option Nat :=
  (List.range Config.pointCount).find? fun p => (s.sectionEntry i).confirmList.contains p && s.flagged p

/-- Some contributing channel of the section is LIT in the view. -/
def State.someLit (s : State) (i : Nat) : Bool := (s.lowestLit i).isSome

/-- Rules in force (R85); `noRule` is that of a DISABLED section. -/
inductive Rule where
  | lightOnly
  | lightAndCurrent
  | unconfirmable
  | noRule
  deriving DecidableEq, Repr

/-- Rule codes of a SECTION_TRIPPED record (R194). -/
def Rule.code : Rule → Nat
  | .lightOnly => 1 | .lightAndCurrent => 2 | .unconfirmable => 0 | .noRule => 0

/-- The rule in force of a section (R85). -/
def State.rule (s : State) (i : Nat) : Rule :=
  match (s.sectionEntry i).modeOf with
  | some .lightOnly => .lightOnly
  | some .normal =>
    if (s.sectionRec i).maintenance then .lightOnly
    else if (s.sectionEntry i).confirmList.any s.pointHasData then .lightAndCurrent
    else if (s.sectionEntry i).fallbackLightOnly then .lightOnly else .unconfirmable
  | _ => .noRule

/-- The trip condition of a section (R86). -/
def State.tripCondition (s : State) (i : Nat) : Bool :=
  match s.rule i with
  | .lightOnly => (s.lowestEligible i).isSome
  | .lightAndCurrent => s.someLit i && (s.lowestFlagged i).isSome
  | _ => false

/-! ## Evaluation (R88 to R90, R93 to R95) -/

/-- The event that an evaluation answers (R90): a channel report, a point report, or any other event. -/
inductive Cause where
  | channel (c : Nat)
  | point (p : Nat)
  | other
  deriving DecidableEq, Repr

/-- The causing channel of a trip (R90). -/
def State.causingChannel (s : State) (i : Nat) : Cause → Option Nat
  | .channel c => some c
  | _ => if s.rule i = .lightAndCurrent then s.lowestLit i else s.lowestEligible i

/-- The causing point of a trip, under the light-and-current rule alone (R90). -/
def State.causingPoint (s : State) (i : Nat) (cause : Cause) : Option Nat :=
  if s.rule i = .lightAndCurrent then
    (match cause with
     | .point p => some p
     | _ => s.lowestFlagged i)
  else none

/-- The SECTION_TRIPPED record of a trip (R89, R90, R103). -/
def State.trippedRecord (s : State) (i : Nat) (cause : Cause) : RecordBody :=
  { kind := .sectionTripped, category := .trip, sect := some i, channel := s.causingChannel i cause,
    point := s.causingPoint i cause, value := some (value2 0 (s.rule i).code) }

/-- A section enters TRIPPED (R89): its state and its alarm markers, its record, then an order of depth 0 on each boundary
breaker. It disturbs a validation (R159). -/
def State.enterTripped (s : State) (i : Nat) (cause : Cause) : State :=
  let r := s.sectionRec i
  let s' := (s.setSection i
    { r with state := .tripped, persistence := .stopped, persistentMade := false, unconfirmableMade := false }).disturb
  State.askBoundary i (s.sectionEntry i).boundaryList (s'.record (s.trippedRecord i cause))

/-- A LIGHT section under the unconfirmable rule makes a LIGHT_UNCONFIRMABLE record, once in an episode (R95). -/
def State.alarmUnconfirmable (s : State) (i : Nat) : State :=
  let r := s.sectionRec i
  if s.rule i = .unconfirmable ∧ r.unconfirmableMade = false then
    (s.record { kind := .lightUnconfirmable, category := .alarm, sect := some i, channel := s.lowestLit i }).setSection i
      { r with unconfirmableMade := true }
  else s

/-- A section enters LIGHT and begins an episode (R94): its timer starts and both alarm markers become no. It disturbs a
validation (R159). -/
def State.beginLight (s : State) (i : Nat) : State :=
  (s.setSection i { s.sectionRec i with
    state := .light, persistence := .running Config.persistenceTime, persistentMade := false,
    unconfirmableMade := false }).disturb

/-- A section is evaluated (R88): TRIPPED when its trip condition is true, else LIGHT when a contributing channel is LIT,
else ARMED. -/
def State.evaluate (s : State) (i : Nat) (cause : Cause) : State :=
  if s.tripCondition i then s.enterTripped i cause
  else if s.someLit i then
    (if (s.sectionRec i).state = .light then s else s.beginLight i).alarmUnconfirmable i
  else s.setSection i { s.sectionRec i with state := .armed, persistence := .stopped }

/-- A report reaches a section: an ARMED or LIGHT section is evaluated, any other is left as it is (R83, R84, R91, R92). -/
def State.reportTo (s : State) (i : Nat) (cause : Cause) : State :=
  if (s.sectionRec i).state = .armed ∨ (s.sectionRec i).state = .light then s.evaluate i cause else s

/-- A channel is reported (R51, R83): its view is replaced and the section its entry names acts. -/
def State.reportChannel (s : State) (c : Nat) (v : ChannelView) : State :=
  let s := s.setChannelView c v
  match (s.tables.channel c).sectOf with
  | some i => s.reportTo i (.channel c)
  | none => s

/-- A point is reported (R75, R84): its view is replaced and every section whose confirm list holds it acts, in ascending
section number, each handled whole before the next. -/
def State.reportPoint (s : State) (p : Nat) (v : PointView) : State :=
  (List.range Config.sectionCount).foldl
    (fun s i =>
      if markerSet (s.sectionEntry i).inUse && (s.sectionEntry i).confirmList.contains p then s.reportTo i (.point p)
      else s)
    (s.setPointView p v)

/-- A section's state is recomputed (R87). -/
def State.recompute (s : State) (i : Nat) : State :=
  let r := s.sectionRec i
  let quiet (st : SectionState) : SectionRec :=
    { r with state := st, persistence := .stopped, persistentMade := false, unconfirmableMade := false }
  if s.sectionInactive i then s.setSection i (quiet .inactive)
  else if r.state = .tripped then s.setSection i (quiet .tripped)
  else if r.block then s.setSection i (quiet .blocked)
  else (s.setSection i (quiet .armed)).evaluate i .other

/-- A section's persistence timer expires (R94). -/
def State.persistenceExpiry (s : State) (i : Nat) : State :=
  let r := s.sectionRec i
  if r.persistence.isRunning then
    let s := s.setSection i { r with persistence := .stopped, persistentMade := true }
    if r.persistentMade then s
    else s.record { kind := .lightPersistent, category := .alarm, sect := some i, channel := s.lowestLit i }
  else s

/-! ## Requests on sections (R96 to R100) -/

/-- The checks before a section request (R96): none when the request is taken. -/
def State.sectionCheck (s : State) (i : Nat) : Option Result :=
  if s.agent.mode = .unconfigured then some .unconfigured
  else if Config.sectionCount ≤ i then some .badIndex
  else none

/-- A section request is taken when the checks of R96 pass. -/
def State.onSection (s : State) (i : Nat) (taken : State × Result) : State × Result :=
  match s.sectionCheck i with
  | some r => (s, r)
  | none => taken

/-- A flag change of a section is recorded (R97 to R99, R103). R92 says that an INACTIVE section makes no section record, and R97 and
R99 record a flag change in every section state: that the change is recorded of an INACTIVE section too is the model's choice
(DESIGN CHOICE, log entry 19). -/
def flagRecord (kind : RecordKind) (i : Nat) (on : Bool) : RecordBody :=
  { kind := kind, category := .notice, sect := some i, value := some (value2 0 (if on then 1 else 0)) }

/-- SET_BLOCK(section, on) (R97); its record is made of an INACTIVE section too (log entry 19). -/
def State.setBlockOn (s : State) (i : Nat) : State × Result :=
  let r := s.sectionRec i
  let s' := s.setSection i { r with
    block := true
    state := if r.state = .armed ∨ r.state = .light then .blocked else r.state
    persistence := if r.state = .light then .stopped else r.persistence }
  s.onSection i (if r.block then s' else s'.record (flagRecord .blockChange i true), .ok)

/-- SET_BLOCK(section, off) (R98): on a BLOCKED section it is the unblock, evaluated after the BLOCK_CHANGE record, which is made of
an INACTIVE section too (log entry 19). -/
def State.setBlockOff (s : State) (i : Nat) : State × Result :=
  let r := s.sectionRec i
  let s' := s.setSection i { r with block := false, state := if r.state = .blocked then .armed else r.state }
  let s'' := if r.block then s'.record (flagRecord .blockChange i false) else s'
  s.onSection i (if r.state = .blocked then s''.evaluate i .other else s'', .ok)

/-- SET_MAINTENANCE(section, on or off) (R99); its record is made of an INACTIVE section too (log entry 19). -/
def State.setMaintenance (s : State) (i : Nat) (on : Bool) : State × Result :=
  let r := s.sectionRec i
  s.onSection i
    (if r.maintenance = on then s
     else
       ((s.setSection i { r with maintenance := on }).record (flagRecord .maintenanceChange i on)).reportTo i .other, .ok)

/-- RELEASE(section) (R100). -/
def State.release (s : State) (i : Nat) : State × Result :=
  let r := s.sectionRec i
  s.onSection i
    (if r.state = .tripped ∧ s.someLit i = false then
       (((s.removeSection i).setSection i { r with state := if r.block then .blocked else .armed }).record
          { kind := .sectionReleased, category := .trip, sect := some i }, .ok)
     else (s, .refusedState))

end Sys2Proof.Machine
end

