-- ==== Sys2Proof/Machine/Current.lean ====
section
/-! DEFINITION. The Current Confirmation Unit (chapter Current Confirmation): scaling, pickup, the stretch counter and the
conditions of a point. -/

namespace Sys2Proof.Machine

/-- A point's entry in the active point table (R151). -/
def State.pointEntry (s : State) (p : Nat) : PointEntry := s.tables.point p

/-- A phase magnitude scaled (R71). -/
def scaled (e : PointEntry) (m : Nat) : Nat := min Config.wordMax (m * e.scale.toNat / Config.unitScale)

/-- The largest of the three scaled magnitudes (R71). -/
def Phases.imax (e : PointEntry) (x : Phases) : Nat := max (scaled e x.m1) (max (scaled e x.m2) (scaled e x.m3))

/-- The stretch counter after a sample: R when it is over pickup, one less otherwise (R72). -/
def stretchAfter (e : PointEntry) (stretch : Nat) (x : Phases) : Nat :=
  if e.pickup.toNat ≤ x.imax e then e.stretch.toNat else stretch - 1

/-- A point's record is replaced, and the point is reported when its confirm flag or condition has changed (R75). -/
def State.changePoint (s : State) (p : Nat) (old new : PointRec) : State :=
  let s := s.setPoint p new
  if old.view = new.view then s else s.reportPoint p new.view

/-- The gap step of a point sample (R70, R73). -/
def State.pointGap (s : State) (p gap : Nat) : State :=
  match s.point p with
  | some r => s.changePoint p r { r with stretch := r.stretch - gap }
  | none => s

/-- The sample step of a point sample (R70, R72). -/
def State.pointSample (s : State) (p : Nat) (x : Phases) : State :=
  match s.point p with
  | some r => s.changePoint p r { r with stretch := stretchAfter (s.pointEntry p) r.stretch x }
  | none => s

/-- A point sample is delivered: the gap, then the sample (R70). -/
def State.deliverPoint (s : State) (p gap : Nat) (x : Phases) : State := (s.pointGap p gap).pointSample p x

/-- A point's node has become STALE (R76). -/
def State.pointStale (s : State) (p : Nat) : State :=
  match s.point p with
  | some r => s.changePoint p r ⟨0, .noData⟩
  | none => s

/-- A point's node has become LIVE: a NO_DATA point becomes NORMAL with its counter at 0 (R77). -/
def State.pointLive (s : State) (p : Nat) : State :=
  match s.point p with
  | some r => if r.cond = .noData then s.changePoint p r ⟨0, .normal⟩ else s
  | none => s

end Sys2Proof.Machine
end

