-- ==== Sys2Proof/Machine/Light.lean ====
section
/-! DEFINITION. The Light Qualifier (chapter Light Channels): compensation, integrator, light state, flicker, gaps, and the
conditions of a channel. -/

namespace Sys2Proof.Machine

/-- A channel's entry in the active channel table (R150). -/
def State.channelEntry (s : State) (c : Nat) : ChannelEntry := s.tables.channel c

/-! ## One processed sample (R45 to R59) -/

/-- The kinds of processed sample (R45): received with its raw level, held, or missing. -/
inductive Sample where
  | received (level : Nat)
  | held
  | missing
  deriving DecidableEq, Repr

/-- The compensated level of a raw level under a live gain (R46). -/
def compensate (level gain : Nat) : Nat := min Config.levelMax (level * gain / 256)

/-- The integrator after a received or held sample of compensated level `c` (R48). -/
def integrate (e : ChannelEntry) (integ c : Nat) : Nat :=
  if e.threshold.toNat ≤ c then min Config.wordMax (integ + (c - e.threshold.toNat)) else integ - e.decay.toNat

/-- The compensated level a sample is processed with: none for a missing sample (R46, R48, R49). -/
def Sample.level (r : ChannelRec) : Sample → Option Nat
  | .received l => some (compensate l r.gain)
  | .held => r.comp
  | .missing => none

/-- The integrator after a sample: a missing sample takes D (R48, R49). -/
def integAfter (e : ChannelEntry) (integ : Nat) : Option Nat → Nat
  | some c => integrate e integ c
  | none => integ - e.decay.toNat

/-- The sample lay below threshold; a missing sample always does (R54). -/
def belowThreshold (e : ChannelEntry) : Option Nat → Bool
  | some c => c < e.threshold.toNat
  | none => true

/-- A sample is a crossing: received, at or above T, after one below threshold (R54). -/
def isCrossing (e : ChannelEntry) (r : ChannelRec) (x : Sample) : Bool :=
  match x with
  | .received l => r.pred = some true && e.threshold.toNat ≤ compensate l r.gain
  | _ => false

/-- What a sample did to FLICKER: the record that it calls for (R58). -/
inductive FlickerEvent where
  | nothing
  | turnedOn
  | turnedOff
  deriving DecidableEq, Repr

/-- A crossing is counted (R55): it opens a window with one crossing, or adds one up to F; FLICKER is set when the count
reaches F with FLICKER off. -/
def countCrossing (e : ChannelEntry) (r : ChannelRec) : ChannelRec × FlickerEvent :=
  match r.window with
  | none => ({ r with window := some ⟨1, 0⟩ }, .nothing)
  | some w =>
    let n := min e.limit.toNat (w.crossings + 1)
    let r' := { r with window := some { w with crossings := n } }
    if n = e.limit.toNat ∧ r.flicker = false then ({ r' with flicker := true }, .turnedOn) else (r', .nothing)

/-- The flicker window closes (R56): below F, FLICKER is cleared and no window is open; otherwise FLICKER stays and a fresh
window opens. -/
def closeWindow (e : ChannelEntry) (w : FlickerWindow) (r : ChannelRec) : ChannelRec × FlickerEvent :=
  if w.crossings < e.limit.toNat then
    ({ r with window := none, flicker := false }, if r.flicker then .turnedOff else .nothing)
  else ({ r with window := some ⟨0, 0⟩ }, .nothing)

/-- The elapsed count of a window that was open before the sample advances by one, and the window closes when it reaches W
(R56). -/
def advanceWindow (e : ChannelEntry) (r : ChannelRec) : ChannelRec × FlickerEvent :=
  match r.window with
  | none => (r, .nothing)
  | some w =>
    let w := { w with elapsed := w.elapsed + 1 }
    if e.window.toNat ≤ w.elapsed then closeWindow e w r else ({ r with window := some w }, .nothing)

/-- What flicker detection makes of a sample (R54 to R57): the crossing first, then the elapsed count; the sample that opens
a window does not advance it, and W = 0 turns detection off. The two events are in the order in which they happen. -/
def flickerStep (e : ChannelEntry) (r : ChannelRec) (crossing : Bool) : ChannelRec × FlickerEvent × FlickerEvent :=
  if e.window = 0 then (r, .nothing, .nothing)
  else
    let counted := if crossing then countCrossing e r else (r, .nothing)
    if r.window = none then (counted.1, counted.2, .nothing)
    else
      let advanced := advanceWindow e counted.1
      (advanced.1, counted.2, advanced.2)

/-- Eligibility recomputed (R59). -/
def ChannelRec.withEligibility (e : ChannelEntry) (r : ChannelRec) : ChannelRec :=
  { r with eligible := eligibleOf r.light r.flicker r.integ e.qualify.toNat }

/-- A channel record after one processed sample: compensated level, integrator, light state, predecessor, flicker and
eligibility (R46 to R59). -/
def ChannelRec.process (e : ChannelEntry) (r : ChannelRec) (x : Sample) : ChannelRec × FlickerEvent × FlickerEvent :=
  let level := x.level r
  let integ := integAfter e r.integ level
  let stepped : ChannelRec := { r with
    comp := (match x with
      | .received _ => level
      | _ => r.comp)
    integ := integ
    light := lightAfter integ e.qualify.toNat r.light }
  let f := flickerStep e stepped (isCrossing e r x)
  (({ f.1 with pred := some (belowThreshold e level) }).withEligibility e, f.2.1, f.2.2)

/-- The FLICKER record that an event calls for (R58). -/
def State.flickerRecord (s : State) (c : Nat) : FlickerEvent → State
  | .nothing => s
  | .turnedOn =>
    s.record { kind := .flickerOn, category := .notice, channel := some c, sect := (s.channelEntry c).sectOf }
  | .turnedOff =>
    s.record { kind := .flickerOff, category := .notice, channel := some c, sect := (s.channelEntry c).sectOf }

/-- A channel's record is replaced, and the channel is reported when its light state, eligibility or condition differ from
those of the record it had (R51). -/
def State.changeChannel (s : State) (c : Nat) (old new : ChannelRec) : State :=
  let s := s.setChannel c new
  if old.view = new.view then s else s.reportChannel c new.view

/-- One processed sample of a channel: its FLICKER records, then its report (R51, R53, R58). -/
def State.processSample (s : State) (c : Nat) (x : Sample) : State :=
  match s.channel c with
  | none => s
  | some r =>
    let p := r.process (s.channelEntry c) x
    ((s.flickerRecord c p.2.1).flickerRecord c p.2.2).changeChannel c r p.1

/-- The same kind of sample processed `n` times, one by one (R49, R52, R53). -/
def State.processMany (s : State) (c : Nat) (x : Sample) : Nat → State
  | 0 => s
  | n + 1 => (s.processSample c x).processMany c x n

/-- How many of `gap` lost samples are held: at most four, and none when the channel holds no compensated level (R52). -/
def heldCount (r : ChannelRec) (gap : Nat) : Nat := if r.comp = none then 0 else min gap Config.heldMax

/-- A sample delivered to a NORMAL or DIRTY channel with its gap: held samples, missing samples, then the received sample
(R52). -/
def State.processDelivered (s : State) (c level gap : Nat) : State :=
  match s.channel c with
  | none => s
  | some r =>
    (((s.processMany c .held (heldCount r gap)).processMany c .missing (gap - heldCount r gap)).processSample c
      (.received level))

/-! ## Conditions (R60 to R64) -/

/-- The NO_DATA values of a channel: its gain and its lens standing are kept (R60). -/
def ChannelRec.noData (r : ChannelRec) : ChannelRec :=
  { r with
    raw := none, comp := none, integ := 0, light := .dark, pred := none, window := none, flicker := false,
    eligible := false, cond := .noData }

/-- A channel's node has become STALE (R60). -/
def State.channelStale (s : State) (c : Nat) : State :=
  match s.channel c with
  | some r => s.changeChannel c r r.noData
  | none => s

/-- A channel's node has become LIVE: a NO_DATA channel takes its lens standing (R61). -/
def State.channelLive (s : State) (c : Nat) : State :=
  match s.channel c with
  | some r =>
    if r.cond = .noData then
      s.changeChannel c r (({ r with cond := r.standing.cond }).withEligibility (s.channelEntry c))
    else s
  | none => s

/-- The Lens Check Engine makes a channel TESTING (R62). -/
def State.startTesting (s : State) (c : Nat) : State :=
  match s.channel c with
  | some r => s.changeChannel c r { r with cond := .testing }
  | none => s

/-- A test hands over a new gain and lens standing (R62, R141). -/
def State.handOver (s : State) (c gain : Nat) (standing : Standing) : State :=
  match s.channel c with
  | some r => s.setChannel c { r with gain := gain, standing := standing }
  | none => s

/-- The Lens Check Engine asks for a channel to be taken out of TESTING (R64). When the test ended with ABORTED_LIGHT the
aborting sample is then processed as a received sample (R63). -/
def State.leaveTesting (s : State) (c : Nat) (aborting : Option Nat) : State :=
  match s.channel c with
  | some r =>
    if r.cond = .noData then s
    else if s.nodeLive (s.channelEntry c).node.toNat then
      let s := s.changeChannel c r { r with cond := r.standing.cond }
      match aborting with
      | some level => s.processSample c (.received level)
      | none => s
    else s.changeChannel c r r.noData
  | none => s

/-- A channel record after a reset, or after an activation that resets the channel (R44, R65). -/
def ChannelRec.fresh (e : ChannelEntry) (cond : ChannelCond) : ChannelRec where
  raw := none
  comp := none
  gain := e.gain0.toNat
  integ := 0
  light := .dark
  pred := none
  window := none
  flicker := false
  eligible := false
  cond := cond
  standing := .normal

end Sys2Proof.Machine
end

