-- ==== Sys2Proof/Machine/Lens.lean ====
section
/-! DEFINITION. The Lens Check Engine (chapter Lens Test): the acceptance checks, test frames, the samples of a test, the gain
computation and the endings; and the delivery of a light sample to its channel (R45, R63). -/

namespace Sys2Proof.Machine

/-- Replace the engine record. -/
def State.setLens (s : State) (l : LensEngine) : State := { s with lens := l }

/-! ## Test frames (R136) -/

/-- The TEST frame for a channel (R136). -/
def State.testFrame (s : State) (c : Nat) (on : Bool) : TestFrame :=
  ⟨(s.tables.node (s.channelEntry c).node.toNat).address, (s.channelEntry c).number, on⟩

/-- A built TEST frame is offered to the CONTROL queue: it joins the held TEST frames when the queue is full or an earlier
frame is still held (R136). -/
def State.offerTest (s : State) (f : TestFrame) : State :=
  if s.lens.held = [] ∧ s.controlRoom then s.pushControl (.test f)
  else s.setLens { s.lens with held := s.lens.held ++ [f] }

/-- The TEST(on) of the test under way is still held: a held TEST(on) is always that of the test under way (R136). -/
def LensEngine.holdsOn (l : LensEngine) : Bool := l.held.any fun f => f.on

/-! ## The gain computation (R141) -/

/-- Results of a test (R142). -/
inductive LensResult where
  | done | dirty | blocked | noResponse | abortedLight
  deriving DecidableEq, Repr

/-- Result codes of a LENS_RESULT record (R194). -/
def LensResult.code : LensResult → Nat
  | .done => 1 | .dirty => 2 | .blocked => 3 | .noResponse => 4 | .abortedLight => 5

/-- Categories of a LENS_RESULT record (R146). -/
def LensResult.category : LensResult → Category
  | .done => .notice | .dirty => .alarm | .blocked => .alarm | .noResponse => .alarm | .abortedLight => .notice

/-- Gn: 256 × Pref / Ppk rounded to the nearest integer, a half rounded up (R141). -/
def gainFor (reference peak : Nat) : Nat := (256 * reference + peak / 2) / peak

/-- The result, live gain and lens standing that a complete window gives (R141). -/
def gainResult (reference peak gain : Nat) : LensResult × Nat × Standing :=
  if peak < reference / 8 then (.blocked, gain, .dirty)
  else if Config.gainMax < gainFor reference peak then (.dirty, Config.gainMax, .dirty)
  else (.done, max Config.gainMin (gainFor reference peak), .normal)

/-- The test ceiling (R137). -/
def testCeiling (e : ChannelEntry) : Nat := min Config.levelMax (3 * e.reference.toNat)

/-! ## Ending a test (R142, R143, R146) -/

/-- The LENS_RESULT record of an ending (R146): peak in bits 23 to 12, live gain after the test in bits 9 to 0 (R194). -/
def State.lensRecord (s : State) (c : Nat) (result : LensResult) : RecordBody :=
  { kind := .lensResult, category := result.category, channel := some c, node := some (s.channelEntry c).node.toNat,
    sect := (s.channelEntry c).sectOf,
    value := some (BitVec.ofNat 32 (result.code * 2 ^ 24 + s.lens.peak * 2 ^ 12 +
      (match s.channel c with
       | some r => r.gain
       | none => 0))) }

/-- Step 4 of an ending (R142): a held TEST(on) of this test is removed and no TEST(off) is built; otherwise a TEST(off) is
built and offered, unless the channel's node is STALE (R143). -/
def State.putOutLamp (s : State) (c : Nat) : State :=
  if s.lens.holdsOn then s.setLens { s.lens with held := s.lens.held.filter fun f => !f.on }
  else
    match s.node (s.channelEntry c).node.toNat with
    | some ⟨.stale, _, _⟩ => s
    | _ => s.offerTest (s.testFrame c false)

/-- Step 5 of an ending (R142): the engine is IDLE; peak and window count keep their last values. -/
def State.idleLens (s : State) : State :=
  s.setLens { s.lens with state := .idle, channel := none, startWait := .stopped }

/-- Steps 2 to 5 of an ending (R142). `aborting` is the raw level of the sample that ended the test with ABORTED_LIGHT. -/
def State.endTest (s : State) (c : Nat) (result : LensResult) (aborting : Option Nat) : State :=
  ((((s.record (s.lensRecord c result)).leaveTesting c aborting).putOutLamp c).idleLens)

/-- The window is complete: the gain computation, then the ending with its result (R138, R141, R142). -/
def State.completeWindow (s : State) (c : Nat) : State :=
  match s.channel c with
  | none => s
  | some r =>
    let g := gainResult (s.channelEntry c).reference.toNat s.lens.peak r.gain
    (s.handOver c g.2.1 g.2.2).endTest c g.1 none

/-! ## Samples of a test (R63, R137, R138, R140) -/

/-- A flagged sample is counted, and the window count is compared with the channel's test window (R137, R138). -/
def State.countFlagged (s : State) (c count peak : Nat) : State :=
  let s := s.setLens { s.lens with state := .measuring, startWait := .stopped, count := count, peak := peak }
  if count = (s.channelEntry c).testWindow.toNat then s.completeWindow c else s

/-- A sample of the channel under test is handed to the engine (R137, R138, R140). -/
def State.lensSample (s : State) (c level : Nat) (flag : Bool) : State :=
  if s.lens.channel ≠ some c ∨ s.lens.state = .idle then s
  else if testCeiling (s.channelEntry c) < level then s.endTest c .abortedLight (some level)
  else
    match s.lens.state, flag with
    | .measuring, true => s.countFlagged c (s.lens.count + 1) (max s.lens.peak level)
    | .measuring, false => s.endTest c .noResponse none
    | _, true => s.countFlagged c 1 level
    | _, false => s

/-- A light sample is delivered to its channel (R45): its raw level at once; then, NORMAL or DIRTY, its gap and the sample
(R52), or, TESTING, the engine's handling with the gap discarded (R63). -/
def State.deliverLight (s : State) (c level : Nat) (flag : Bool) (gap : Nat) : State :=
  match s.channel c with
  | none => s
  | some r =>
    let s := s.setChannel c { r with raw := some level }
    match r.cond with
    | .normal => s.processDelivered c level gap
    | .dirty => s.processDelivered c level gap
    | .testing => s.lensSample c level flag
    | .noData => s

/-- A sample of the channel under test ends the test with ABORTED_LIGHT (R140). -/
def State.abortsTest (s : State) (c level : Nat) : Bool :=
  s.lens.channel = some c && s.lens.state ≠ .idle && testCeiling (s.channelEntry c) < level

/-- How many processed samples a delivered sample gives its channel: the gap and the sample, NORMAL or DIRTY (R52); TESTING, the
sample alone, when it aborts the test (R63); none in NO_DATA. -/
def State.samplesGiven (s : State) (c : Nat) (cond : ChannelCond) (level gap : Nat) : Nat :=
  match cond with
  | .normal => gap + 1
  | .dirty => gap + 1
  | .testing => if s.abortsTest c level then 1 else 0
  | .noData => 0

/-! ## Events at the engine -/

/-- The start wait timer expires (R139). -/
def State.startWaitExpiry (s : State) : State :=
  match s.lens.startWait.isRunning, s.lens.channel with
  | true, some c => s.endTest c .noResponse none
  | _, _ => s

/-- TEST_WINDOW_COMPLETE: a flagged sample no brighter than the peak brings the window count to the test window (R138). The
command names no sample, so the peak and the raw level stay (log entry 3). -/
def State.testWindowComplete (s : State) : State :=
  match s.lens.state, s.lens.channel with
  | .measuring, some c =>
    if s.lens.count + 1 = (s.channelEntry c).testWindow.toNat then s.countFlagged c (s.lens.count + 1) s.lens.peak else s
  | _, _ => s

/-- The node of the channel under test has become STALE (R143). -/
def State.lensNodeStale (s : State) (n : Nat) : State :=
  match s.lens.state, s.lens.channel with
  | .idle, _ => s
  | _, none => s
  | _, some c => if (s.channelEntry c).node.toNat = n then s.endTest c .noResponse none else s

/-! ## TEST_LENS (R134, R135) -/

/-- The section of a channel and what the record of that section holds, none for a channel whose section is NONE. -/
def State.sectionOfChannel (s : State) (c : Nat) : Option (Nat × SectionState) :=
  (s.channelEntry c).sectOf.map fun i => (i, (s.sectionRec i).state)

/-- Some channel other than `c` contributes to the section. -/
def State.otherContributes (s : State) (i c : Nat) : Bool :=
  (List.range Config.channelCount).any fun c' => c' ≠ c && s.contributes i c'

/-- The acceptance checks of TEST_LENS, in their order: the first that fails gives the result (R134). -/
def State.lensCheck (s : State) (c : Nat) : Result :=
  if s.agent.mode = .unconfigured then .unconfigured
  else if Config.channelCount ≤ c ∨ !markerSet (s.channelEntry c).inUse then .badIndex
  else if s.lens.state ≠ .idle then .busy
  else
    match s.channel c with
    | none => .refusedState
    | some r =>
      if r.cond = .noData then .refusedState
      else
        match s.sectionOfChannel c with
        | none => .ok
        | some (i, st) =>
          if st = .light ∨ st = .tripped then .refusedState
          else if st = .armed ∧ s.contributes i c ∧ !s.otherContributes i c then .refusedSole
          else .ok

/-- TEST_LENS is accepted (R135): it disturbs a validation (R159). -/
def State.acceptTest (s : State) (c : Nat) : State :=
  let s := (s.setLens { s.lens with channel := some c, peak := 0, count := 0 }).disturb
  let s := s.startTesting c
  let s := s.offerTest (s.testFrame c true)
  s.setLens { s.lens with state := .starting, startWait := .running Config.startWaitTime }

/-- TEST_LENS(channel) (R134, R135). -/
def State.testLens (s : State) (c : Nat) : State × Result :=
  if s.lensCheck c = .ok then (s.acceptTest c, .ok) else (s, s.lensCheck c)

end Sys2Proof.Machine
end

