-- ==== Sys2Proof/Machine/Loop.lean ====
section
/-! DEFINITION. The Loop Port (chapter The Sensor Loop): the claim, supervision and beacon, the loop states, the break position
and the cut set, and the frames that wait for room. -/

namespace Sys2Proof.Machine

/-! ## Frames that wait for room (R7, R24, R136, R168) -/

/-- The waiting CLAIM frame is queued at the first room in the CONTROL queue (R7). -/
def State.queueWaitingClaim (s : State) : State :=
  if s.loop.claimWaiting && s.controlRoom then
    (s.setLoop { s.loop with claimWaiting := false }).pushControl .claim
  else s

/-- Held TEST frames are offered in their order; each accepted frame leaves the held list (R136). The second argument bounds
the frames by their number. -/
def State.offerHeldTests (s : State) : Nat → State
  | 0 => s
  | n + 1 =>
    match s.lens.held with
    | [] => s
    | f :: rest =>
      if s.controlRoom then
        ((s.setLens { s.lens with held := rest }).pushControl (.test f)).offerHeldTests n
      else s

/-- Held TEST frames are offered at room in the CONTROL queue that a waiting CLAIM frame does not take (R136). -/
def State.queueHeldTests (s : State) : State :=
  if s.loop.claimWaiting then s else s.offerHeldTests s.lens.held.length

/-- Held responses are offered in their order; each accepted response leaves the held list (R168). -/
def State.offerHeldResponses (s : State) : Nat → State
  | 0 => s
  | n + 1 =>
    match s.agent.held with
    | [] => s
    | r :: rest =>
      if s.routineRoom then
        (({ s with agent := { s.agent with held := rest } } : State).pushRoutine r).offerHeldResponses n
      else s

/-- Held responses are offered when the ROUTINE queue has room (R168). -/
def State.queueHeldResponses (s : State) : State := s.offerHeldResponses s.agent.held.length

/-- The holders of refused frames are told of room in the CONTROL queue (R22, R24): the waiting CLAIM takes it first, then the
held TEST frames. -/
def State.tellControlRoom (s : State) : State := s.queueWaitingClaim.queueHeldTests

/-- The blocks that hold refused frames are told of room at the end of an event that may have made some (R22, R24): those of the
CONTROL queue, then the Management Agent. Log entry 5. -/
def State.settleRoom (s : State) : State := s.tellControlRoom.queueHeldResponses

/-! ## The claim (R7 to R10) -/

/-- The configured sequence: the addresses of the in-use node entries, from lowest to highest loop position (R10), which
validation holds within 1 to 48 (R157). -/
def State.configuredSequence (s : State) : List Byte :=
  (List.range (Config.claimListMax + 1)).flatMap fun p =>
    ((List.range Config.nodeCount).filter fun i =>
      markerSet (s.tables.node i).inUse && (s.tables.node i).position.toNat = p).map
        fun i => (s.tables.node i).address

/-- The first position, counting from `i`, at which two lists differ or one has ended (R10). -/
def firstDifference : List Byte → List Byte → Nat → Option Nat
  | [], [], _ => none
  | a :: as, b :: bs, i => if a = b then firstDifference as bs (i + 1) else some i
  | _, _, i => some i

/-- The claim result of a claim list (R10). -/
def State.compareClaim (s : State) (list : List Byte) : ClaimResult :=
  if s.agent.mode = .unconfigured then .unchecked
  else
    match firstDifference list s.configuredSequence 1 with
    | none => .matched
    | some p => .mismatch p

/-- The CLAIM_RESULT record of a claim result (R10). -/
def claimRecord (r : ClaimResult) : RecordBody :=
  { kind := .claimResult
    category := (match r with
      | .mismatch _ => .alarm
      | _ => .notice)
    value := some (value2 r.code.toNat r.position) }

/-- The Loop Port's values on entry to CLAIMING, before the CLAIM frame is queued (R7): its timers stopped, the claim and the
break forgotten, and the SUPERVISION, BEACON and CLAIM frames that have not started withdrawn. -/
def LoopPort.toClaiming (l : LoopPort) : LoopPort :=
  { l with
    state := .claiming
    sendTimer := .stopped
    supervisionTimer := .stopped
    beaconTimer := .stopped
    claimTimer := .stopped
    result := .noResult
    claimList := []
    outstanding := none
    breakPos := none
    cutSet := []
    claimWaiting := true
    controlQ := l.controlQ.filter ControlFrame.isTest }

/-- The Loop Port enters CLAIMING (R7): the CLAIM frame is queued, or waits for room in the CONTROL queue. -/
def State.enterClaiming (s : State) : State := (s.setLoop s.loop.toClaiming).queueWaitingClaim

/-- The loop becomes CLOSED (R12): the supervision timer and the supervision send timer start. -/
def LoopPort.toClosed (l : LoopPort) : LoopPort :=
  { l with
    state := .loopClosed
    claimTimer := .stopped
    outstanding := none
    supervisionTimer := .running Config.supervisionTime
    sendTimer := .running Config.supervisionSendTime }

/-- The addresses a returning CLAIM frame carries, or none when its count exceeds 48 or disagrees with its payload length
(R9). -/
def claimAddresses : List Byte → Option (List Byte)
  | n :: addresses =>
    if n.toNat ≤ Config.claimListMax ∧ addresses.length = n.toNat then some addresses else none
  | [] => none

/-- A CLAIM frame returns (R9): in CLAIMING, with the outstanding claim number, it sets the claim list and result, makes a
CLAIM_RESULT record and closes the loop; otherwise it is discarded. -/
def State.claimReturns (s : State) (seq : Byte) (payload : List Byte) : State :=
  match claimAddresses payload with
  | none => s
  | some list =>
    if s.loop.state = .claiming ∧ s.loop.outstanding = some seq then
      let result := s.compareClaim list
      let s := (s.setLoop { s.loop with claimTimer := .stopped, claimList := list, result := result }).record
        (claimRecord result)
      s.setLoop s.loop.toClosed
    else s

/-! ## Break position and cut breakers (R20, R21) -/

/-- The break position: one more than the highest loop position of an in-use node entry whose node is not LIVE, 1 when every
configured node is LIVE (R20). -/
def State.breakPosition (s : State) : Nat :=
  (List.range Config.nodeCount).foldl
    (fun p i =>
      if markerSet (s.tables.node i).inUse && !s.nodeLive i then max p ((s.tables.node i).position.toNat + 1) else p) 1

/-- A breaker stands at or beyond a break position: its in-use entry names a node whose loop position is `p` or higher
(R21). -/
def State.beyond (s : State) (p b : Nat) : Bool :=
  markerSet (s.tables.breaker b).inUse &&
    (match (s.tables.breaker b).nodeOf with
     | some n => p ≤ (s.tables.node n).position.toNat
     | none => false)

/-- The cut set that a break position gives (R21). -/
def State.cutSetAt (s : State) (p : Nat) : List Nat := (List.range Config.breakerCount).filter (s.beyond p)

/-- The break position and the cut set are recomputed (R20, R21): the breakers that have entered the cut set are handed to
the Trip Dispatcher, in ascending index (log entry 9), and the TRIP frames for the breakers of the new cut set are withdrawn. -/
def State.recomputeCut (s : State) : State :=
  let p := s.breakPosition
  let new := s.cutSetAt p
  let entered := new.filter fun b => !s.isCut b
  let s := s.setLoop { s.loop with breakPos := some p, cutSet := new }
  new.foldl State.withdrawTrip (entered.foldl State.enterCut s)

/-! ## Entering OPEN (R16) -/

/-- Causes of a LOOP_STATE record (R194). -/
inductive OpenCause where
  | claimTimeout
  | supervisionTimeout
  deriving DecidableEq, Repr

/-- Codes of the causes (R194). -/
def OpenCause.code : OpenCause → Nat
  | .claimTimeout => 1 | .supervisionTimeout => 2

/-- The Loop Port's values on entry to OPEN, before the break position (R16). -/
def LoopPort.toOpen (l : LoopPort) : LoopPort :=
  { l with
    state := .loopOpen
    claimTimer := .stopped
    supervisionTimer := .stopped
    sendTimer := .stopped
    outstanding := none
    controlQ := l.controlQ.filter fun f => f ≠ .supervision }

/-- A SUPERVISION or BEACON frame is queued, and skipped when the CONTROL queue is full (R13, R16, R17, R24). -/
def State.queueOrSkip (s : State) (f : ControlFrame) : State := if s.controlRoom then s.pushControl f else s

/-- The LOOP_STATE record (R16): the cause and the break position just computed. -/
def State.loopStateRecord (s : State) (cause : OpenCause) : RecordBody :=
  { kind := .loopState, category := .alarm, value := some (value2 cause.code (s.loop.breakPos.getD 0)) }

/-- The Loop Port enters OPEN, its steps in the order of R16. The room that the withdrawal of SUPERVISION frames makes is told at
once (R22), so held TEST frames take it before the BEACON frame is queued (R24, R136). -/
def State.enterOpen (s : State) (cause : OpenCause) : State :=
  let s := (s.setLoop s.loop.toOpen).tellControlRoom.recomputeCut
  let s := (s.record (s.loopStateRecord cause)).queueOrSkip .beacon
  s.setLoop { s.loop with beaconTimer := .running Config.beaconTime }

/-! ## Events at the Loop Port -/

/-- A SUPERVISION frame returns (R14). -/
def State.supervisionReturns (s : State) : State :=
  if s.loop.state = .loopClosed then
    s.setLoop { s.loop with supervisionTimer := .running Config.supervisionTime }
  else s

/-- A BEACON frame returns (R17). -/
def State.beaconReturns (s : State) : State :=
  if s.loop.state = .loopOpen then s.enterClaiming.settleRoom else s

/-- The claim timer expires (R11, R16). -/
def State.claimExpiry (s : State) : State :=
  if s.loop.claimTimer.isRunning then s.enterOpen .claimTimeout else s

/-- The supervision timer expires (R15, R16). -/
def State.supervisionExpiry (s : State) : State :=
  if s.loop.supervisionTimer.isRunning then s.enterOpen .supervisionTimeout else s

/-- The supervision send timer expires (R13). -/
def State.supervisionSendExpiry (s : State) : State :=
  if s.loop.sendTimer.isRunning then
    (s.setLoop { s.loop with sendTimer := .running Config.supervisionSendTime }).queueOrSkip .supervision
  else s

/-- The beacon timer expires (R17). -/
def State.beaconExpiry (s : State) : State :=
  if s.loop.beaconTimer.isRunning then
    (s.setLoop { s.loop with beaconTimer := .running Config.beaconTime }).queueOrSkip .beacon
  else s

/-- The Loop Port acts on a new active table set, according to its loop state (R19). -/
def State.loopActivation (s : State) : State :=
  match s.loop.state with
  | .loopClosed =>
    let result := s.compareClaim s.loop.claimList
    let s' := s.setLoop { s.loop with result := result }
    if result = s.loop.result then s' else s'.record (claimRecord result)
  | .loopOpen => s.recomputeCut
  | .claiming => s

end Sys2Proof.Machine
end

