-- ==== Sys2Proof/Machine/Admission.lean ====
section
/-! DEFINITION. Node Admission (chapter Node Admission and Freshness): the admission test, live states, sequence numbers, the
stale timer, the delivery of contents and the reports of live-state changes. -/

namespace Sys2Proof.Machine

/-! ## The admission test (R27) -/

/-- The contents of a node frame, as its kind carries them (R36 to R38). -/
inductive Contents where
  | light (samples : List (Nat × Bool))
  | current (samples : List Phases)
  | positions (codes : List Position)
  deriving DecidableEq, Repr

/-- The bytes that follow the count of a node frame's payload, for `n` samples of a node kind (R192). -/
def NodeKind.bytesFor (k : NodeKind) (n : Nat) : Nat :=
  match k with
  | .light => 2 * n
  | .current => 6 * n
  | .breaker => n

/-- The contents that a payload's bytes after the count carry; none when a position code is not one of the four (R27). -/
def NodeKind.contents (k : NodeKind) (bytes : List Byte) : Option Contents :=
  match k with
  | .light => some (.light (lightSamples bytes))
  | .current => some (.current (currentSamples bytes))
  | .breaker => (positionCodes bytes).map .positions

/-- The in-use node entry with a source address (R27): the active node table holds at most one. -/
def State.entryOfSource (s : State) (source : Byte) : Option Nat :=
  (List.range Config.nodeCount).find? fun i =>
    markerSet (s.tables.node i).inUse && ((s.tables.node i).address = source)

/-- The admission test (R27): the node entry and the contents of an accepted frame, none for a discarded one. -/
def State.admission (s : State) (k : NodeKind) (source : Byte) (payload : List Byte) : Option (Nat × Contents) :=
  if s.agent.mode = .unconfigured then none
  else
    match s.entryOfSource source, payload with
    | some i, n :: bytes =>
      if (s.tables.node i).kind = k.code ∧ n = (s.tables.node i).count ∧ bytes.length = k.bytesFor n.toNat then
        (k.contents bytes).map fun c => (i, c)
      else none
    | _, _ => none

/-! ## Reports of live-state change (R40) -/

/-- The node is named by an in-use channel entry. -/
def State.channelsOfNode (s : State) (n : Nat) : List Nat :=
  (List.range Config.channelCount).filter fun c =>
    markerSet (s.tables.channel c).inUse && ((s.tables.channel c).node.toNat = n)

/-- The in-use points whose entry names the node. -/
def State.pointsOfNode (s : State) (n : Nat) : List Nat :=
  (List.range Config.pointCount).filter fun p =>
    markerSet (s.tables.point p).inUse && ((s.tables.point p).node.toNat = n)

/-- The in-use breakers whose entry names the node. -/
def State.breakersOfNode (s : State) (n : Nat) : List Nat :=
  (List.range Config.breakerCount).filter fun b =>
    markerSet (s.tables.breaker b).inUse && ((s.tables.breaker b).nodeOf = some n)

/-- The blocks that depend on a node, other than the Loop Port, are told that it has become STALE (R40): its channels, its
points, its breakers' positions and the lens test, each channel, point and breaker in ascending index. -/
def State.tellStale (n : Nat) (s : State) : State :=
  let s := (s.channelsOfNode n).foldl State.channelStale s
  let s := (s.pointsOfNode n).foldl State.pointStale s
  let s := (s.breakersOfNode n).foldl State.positionUnknown s
  s.lensNodeStale n

/-- The blocks that depend on a node, other than the Loop Port, are told that it has become LIVE (R40). -/
def State.tellLive (n : Nat) (s : State) : State :=
  (s.pointsOfNode n).foldl State.pointLive ((s.channelsOfNode n).foldl State.channelLive s)

/-- A change of a node's live state is reported to its neighbours (R40). While the loop is OPEN the Loop Port recomputes the
break position and the cut set, before or after the others: the manual gives no order (Config.loopPortFirst, log entry 8). -/
def State.tellNeighbours (tell : State → State) (s : State) : State :=
  if s.loop.state = .loopOpen then
    let s' := { s with draws := s.draws + 1 }
    if Config.loopPortFirst s.draws then tell s'.recomputeCut else (tell s').recomputeCut
  else tell s

/-! ## Becoming live, staying live and going stale (R30 to R35) -/

/-- A record of Node Admission: it carries the node entry (R42). -/
def nodeRecord (kind : RecordKind) (category : Category) (n : Nat) (value : Option Word32) : RecordBody :=
  { kind := kind, category := category, node := some n, value := value }

/-- A node entry's stale limit in device time units (R149). -/
def State.staleLimit (s : State) (n : Nat) : Nat := Config.ms (s.tables.node n).stale.toNat

/-- An accepted frame makes an ABSENT or STALE node LIVE (R30): its record and the reports of R40, then its stale timer
(R39). -/
def State.becomeLive (s : State) (n : Nat) (r : NodeRec) (seq : Byte) : State :=
  let s := s.setNode n { r with live := .live, lastSeq := some seq }
  let s := s.record (nodeRecord .nodeLive (if r.live = .stale then .alarm else .notice) n none)
  let s := s.tellNeighbours (State.tellLive n)
  s.setNode n ⟨.live, some seq, .running (s.staleLimit n)⟩

/-- The sequence difference d of a frame from the last one accepted (chapter Node Admission, Sequence numbers). -/
def sequenceDifference (seq last : Byte) : Nat := (seq - last).toNat

/-- An accepted frame of a LIVE node restarts its stale timer and gives its last sequence number; a resynchronisation then
makes its NODE_RESYNC record (R31, R34, R35, R39). -/
def State.stayLive (s : State) (n : Nat) (seq : Byte) (d : Nat) : State :=
  let s := s.setNode n ⟨.live, some seq, .running (s.staleLimit n)⟩
  if 128 < d then s.record (nodeRecord .nodeResync .notice n (some (value2 0 d))) else s

/-- The gap handed on for a sequence difference: d − 1 for 1 to 128, 0 for a resynchronisation (R34, R35). -/
def gapOf (d : Nat) : Nat := if d ≤ 128 then d - 1 else 0

/-! ## Delivery (R36 to R39) -/

/-- The in-use channel entry that names a node entry and a channel number (R36). -/
def State.channelAt (s : State) (n k : Nat) : Option Nat :=
  (s.channelsOfNode n).find? fun c => (s.tables.channel c).number.toNat = k

/-- The in-use point entry that names a node entry and a point number (R37). -/
def State.pointAt (s : State) (n k : Nat) : Option Nat :=
  (s.pointsOfNode n).find? fun p => (s.tables.point p).number.toNat = k

/-- The in-use breaker entry that names a node entry and a breaker number (R38). -/
def State.breakerAt (s : State) (n k : Nat) : Option Nat :=
  (s.breakersOfNode n).find? fun b => (s.tables.breaker b).number.toNat = k

/-- The samples of a list delivered in ascending number on the node, each whole before the next, to the entry that `at'`
finds; a sample that no entry names is not delivered (R39). -/
def deliverAll (at' : State → Nat → Option Nat) (deliver : State → Nat → α → State) : Nat → List α → State → State
  | _, [], s => s
  | k, x :: xs, s =>
    deliverAll at' deliver (k + 1) xs
      (match at' s k with
       | some i => deliver s i x
       | none => s)

/-- The contents of an accepted frame are delivered with its gap (R36 to R39); for positions the gap has no effect (R34). -/
def State.deliver (s : State) (n gap : Nat) : Contents → State
  | .light xs => deliverAll (fun s k => s.channelAt n k) (fun s c x => s.deliverLight c x.1 x.2 gap) 0 xs s
  | .current xs => deliverAll (fun s k => s.pointAt n k) (fun s p x => s.deliverPoint p gap x) 0 xs s
  | .positions xs => deliverAll (fun s k => s.breakerAt n k) (fun s b x => s.deliverPosition b x) 0 xs s

/-- A frame that passed the admission test, from a node with record `r` (R30, R33 to R35, R39). -/
def State.acceptFrame (s : State) (n : Nat) (r : NodeRec) (seq : Byte) (c : Contents) : State :=
  match r.live, r.lastSeq with
  | .live, some last =>
    let d := sequenceDifference seq last
    if d = 0 then s else (s.stayLive n seq d).deliver n (gapOf d) c
  | _, _ => (s.becomeLive n r seq).deliver n 0 c

/-- A node frame reaches Node Admission (R27, R28, R39). A frame with source 0 is none of a node's: it is discarded (R3). -/
def State.nodeFrame (s : State) (k : NodeKind) (source seq : Byte) (payload : List Byte) : State :=
  if source = 0 then s
  else
    match s.admission k source payload with
    | none => s
    | some (n, c) =>
      match s.node n with
      | none => s
      | some r => s.acceptFrame n r seq c

/-! ## Events in the handling of a frame (R56, R74)

A flicker window closes and a stretch counter runs out at the samples of a frame, and at no other moment. The commands of these
events carry the frame that brings them (log entry 3). -/

/-- The node entry, the gap and the contents of a frame that Node Admission accepts; none for one that it discards (R27, R28, R30,
R33 to R35). -/
def State.acceptedFrame (s : State) (k : NodeKind) (source seq : Byte) (payload : List Byte) :
    Option (Nat × Nat × Contents) :=
  if source = 0 then none
  else
    match s.admission k source payload with
    | none => none
    | some (n, c) =>
      match s.node n with
      | none => none
      | some r =>
        match r.live, r.lastSeq with
        | .live, some last =>
          let d := sequenceDifference seq last
          if d = 0 then none else some (n, gapOf d, c)
        | _, _ => some (n, 0, c)

/-- A frame is handled when it is accepted and brings an event; a frame that does not bring it is not this event's. -/
def State.inFrame (s : State) (k : NodeKind) (source seq : Byte) (payload : List Byte)
    (brings : Nat → Nat → Contents → Bool) : State :=
  match s.acceptedFrame k source seq payload with
  | some (n, gap, c) => if brings n gap c then s.nodeFrame k source seq payload else s
  | none => s

/-- A frame's samples bring a channel's open flicker window to W: each processed sample that the frame gives the channel advances
its elapsed count, held, missing and received alike (R52, R56), the sample that aborts the channel's test among them (R63). A
NO_DATA channel has no window (R60), and with W = 0 there is none (R57). -/
def State.bringsWindowClose (s : State) (c n gap : Nat) : Contents → Bool
  | .light xs =>
    (match s.channel c with
     | some r =>
       let w := (s.channelEntry c).window
       w ≠ 0 && r.window.any fun opened =>
         xs.zipIdx.any fun x =>
           let given := s.samplesGiven c r.cond x.1.1 gap
           s.channelAt n x.2 = some c && 0 < given && w.toNat ≤ opened.elapsed + given
     | none => false)
  | _ => false

/-- A frame takes a point's stretch counter from above 0 to 0, by its gap or by its sample (R72, R73). -/
def State.bringsStretchEnd (s : State) (p n gap : Nat) : Contents → Bool
  | .current xs =>
    (match s.point p with
     | some r =>
       0 < r.stretch && xs.zipIdx.any fun x =>
         s.pointAt n x.2 = some p &&
           (r.stretch ≤ gap || stretchAfter (s.pointEntry p) (r.stretch - gap) x.1 = 0)
     | none => false)
  | _ => false

/-- FLICKER_WINDOW_CLOSE: the light frame in whose handling a channel's flicker window closes (R56). -/
def State.flickerWindowClose (s : State) (e : FrameEvent) : State :=
  s.inFrame .light e.source e.seq e.payload (s.bringsWindowClose e.index)

/-- STRETCH_EXPIRY: the current frame in whose handling a point's stretch counter reaches 0 (R72 to R74). -/
def State.stretchExpiry (s : State) (e : FrameEvent) : State :=
  s.inFrame .current e.source e.seq e.payload (s.bringsStretchEnd e.index)

/-- A node's stale timer expires (R32). R32 gives no order between the NODE_STALE record and the records that the reports of R40
cause: NODE_STALE first is the model's choice (DESIGN CHOICE, log entry 18). -/
def State.staleExpiry (s : State) (n : Nat) : State :=
  match s.node n with
  | some r =>
    if r.live = .live ∧ r.timer.isRunning then
      ((s.setNode n ⟨.stale, none, .stopped⟩).record (nodeRecord .nodeStale .alarm n none)).tellNeighbours
        (State.tellStale n)
    else s
  | none => s

end Sys2Proof.Machine
end

