-- ==== Sys2Proof/Machine/Tables.lean ====
section
/-! DEFINITION. Protection tables (chapter Protection Tables): the validation of a table set, the carry-over of live state, the
records that a table set gives rise to, and the swap. -/

namespace Sys2Proof.Machine

/-! ## Validation (R156, R157) -/

/-- A number lies in a range, both ends included. -/
def inRange (lo hi n : Nat) : Bool := lo ≤ n && n ≤ hi

/-- No element of a list stands in it twice. -/
def noRepeats : List Nat → Bool
  | [] => true
  | x :: xs => !xs.contains x && noRepeats xs

/-- Some in-use entry of lower index has a property. -/
def lowerHas (inUse : Nat → Bool) (p : Nat → Bool) (i : Nat) : Bool := (List.range i).any fun j => inUse j && p j

/-- The node entry is in use. -/
def Tables.nodeUsed (t : Tables) (i : Nat) : Bool := markerSet (t.node i).inUse
/-- The channel entry is in use. -/
def Tables.channelUsed (t : Tables) (i : Nat) : Bool := markerSet (t.channel i).inUse
/-- The point entry is in use. -/
def Tables.pointUsed (t : Tables) (i : Nat) : Bool := markerSet (t.point i).inUse
/-- The breaker entry is in use. -/
def Tables.breakerUsed (t : Tables) (i : Nat) : Bool := markerSet (t.breaker i).inUse
/-- The section entry is in use. -/
def Tables.sectionUsed (t : Tables) (i : Nat) : Bool := markerSet (t.sectionAt i).inUse

/-- The count lies in the range of a node kind; a kind code that names none has no range (R149). -/
def countInRange (kind count : Byte) : Bool :=
  if kind = NodeKind.light.code then inRange 1 4 count.toNat
  else if kind = NodeKind.current.code ∨ kind = NodeKind.breaker.code then inRange 1 2 count.toNat
  else false

/-- A node entry passes check 1 (R157). -/
def Tables.nodeOk (t : Tables) (i : Nat) : Bool :=
  let e := t.node i
  inRange 1 254 e.address.toNat && !lowerHas t.nodeUsed (fun j => (t.node j).address = e.address) i &&
    inRange 1 48 e.position.toNat && !lowerHas t.nodeUsed (fun j => (t.node j).position = e.position) i &&
    countInRange e.kind e.count && inRange 1 50 e.stale.toNat

/-- An entry names a node entry that is in use and of a kind, and a number below its count (R157, checks 2 to 4). -/
def Tables.namesNode (t : Tables) (node number : Byte) (k : NodeKind) : Bool :=
  node.toNat < Config.nodeCount && t.nodeUsed node.toNat && (t.node node.toNat).kind = k.code &&
    number.toNat < (t.node node.toNat).count.toNat

/-- A channel entry passes check 2 (R157). -/
def Tables.channelOk (t : Tables) (i : Nat) : Bool :=
  let e := t.channel i
  t.namesNode e.node e.number .light &&
    !lowerHas t.channelUsed (fun j => (t.channel j).node = e.node && (t.channel j).number = e.number) i &&
    (e.sect = 0xFF || inRange 0 15 e.sect.toNat) && inRange 1 4094 e.threshold.toNat &&
    inRange 1 4095 e.decay.toNat && inRange 1 65535 e.qualify.toNat &&
    (e.window = 0 || inRange 8 4095 e.window.toNat) && inRange 2 15 e.limit.toNat &&
    inRange Config.gainMin Config.gainMax e.gain0.toNat && inRange 64 4095 e.reference.toNat &&
    inRange 16 255 e.testWindow.toNat

/-- A point entry passes check 3 (R157). -/
def Tables.pointOk (t : Tables) (i : Nat) : Bool :=
  let e := t.point i
  t.namesNode e.node e.number .current &&
    !lowerHas t.pointUsed (fun j => (t.point j).node = e.node && (t.point j).number = e.number) i &&
    inRange 1 65535 e.scale.toNat && inRange 1 65535 e.pickup.toNat && inRange 1 255 e.stretch.toNat

/-- A breaker entry passes check 4 (R157). -/
def Tables.breakerOk (t : Tables) (i : Nat) : Bool :=
  let e := t.breaker i
  !(e.node = 0xFF && e.line = 0xFF) &&
    (e.node = 0xFF ||
      t.namesNode e.node e.number .breaker &&
        !lowerHas t.breakerUsed (fun j => (t.breaker j).node = e.node && (t.breaker j).number = e.number) i) &&
    (e.line = 0xFF || inRange 0 3 e.line.toNat) && e.backupLen.toNat ≤ 3 &&
    e.backupList.all (fun b => b < Config.breakerCount && t.breakerUsed b && b ≠ i) && noRepeats e.backupList &&
    inRange 20 500 e.failure.toNat

/-- A section entry passes check 5 (R157). -/
def Tables.sectionOk (t : Tables) (i : Nat) : Bool :=
  let e := t.sectionAt i
  e.modeOf.isSome && (e.fallback = 1 || e.fallback = 2) && inRange 1 8 e.boundaryLen.toNat &&
    e.boundaryList.all (fun b => b < Config.breakerCount && t.breakerUsed b) && noRepeats e.boundaryList &&
    e.confirmLen.toNat ≤ 6 && e.confirmList.all (fun p => p < Config.pointCount && t.pointUsed p) &&
    noRepeats e.confirmList && !(e.modeOf = some .normal && e.confirmLen = 0) &&
    (e.modeOf = some .disabled ||
      (List.range Config.channelCount).any fun c => t.channelUsed c && (t.channel c).sectOf = some i)

/-- The failure of a validation (R156): the table of the failing entry, its index and the check number. -/
structure TableFailure where
  table : TableId
  index : Nat
  check : Nat
  deriving DecidableEq, Repr

/-- One check: the in-use entry of lowest index that fails it (R156). -/
def failureOf (table : TableId) (check : Nat) (used ok : Nat → Bool) : Option TableFailure :=
  ((List.range table.size).find? fun i => used i && !ok i).map fun i => ⟨table, i, check⟩

/-- The validation of a table set (R156, R157): none when every in-use entry passes every check, else the first failure. -/
def Tables.validate (t : Tables) : Option TableFailure :=
  (failureOf .node 1 t.nodeUsed t.nodeOk).or <|
    (failureOf .channel 2 t.channelUsed t.channelOk).or <|
      (failureOf .point 3 t.pointUsed t.pointOk).or <|
        (failureOf .breaker 4 t.breakerUsed t.breakerOk).or <| failureOf .sect 5 t.sectionUsed t.sectionOk

/-! ## The records of a table set after a reset (R29, R44, R69, R81, R105) -/

/-- The node record of an in-use entry after a reset (R29). -/
def NodeRec.absent : NodeRec := ⟨.absent, none, .stopped⟩

/-- Node records after a reset (R29). -/
def Tables.freshNodes (t : Tables) : Vector (Option NodeRec) Config.nodeCount :=
  Vector.ofFn fun i => if t.nodeUsed i then some .absent else none

/-- Channel records after a reset (R44). -/
def Tables.freshChannels (t : Tables) : Vector (Option ChannelRec) Config.channelCount :=
  Vector.ofFn fun i => if t.channelUsed i then some (.fresh (t.channel i) .noData) else none

/-- Point records after a reset (R69). -/
def Tables.freshPoints (t : Tables) : Vector (Option PointRec) Config.pointCount :=
  Vector.ofFn fun i => if t.pointUsed i then some ⟨0, .noData⟩ else none

/-- Breaker positions after a reset (R105). -/
def Tables.freshPositions (t : Tables) : Vector (Option Position) Config.breakerCount :=
  Vector.ofFn fun i => if t.breakerUsed i then some .unknown else none

/-- The view of the channels as their records stand (R81, R82, R102). -/
def State.viewOfChannels (s : State) : Vector (Option ChannelView) Config.channelCount :=
  Vector.ofFn fun i => (s.channel i).map ChannelRec.view

/-- The view of the points as their records stand (R81, R82, R102). -/
def State.viewOfPoints (s : State) : Vector (Option PointView) Config.pointCount :=
  Vector.ofFn fun i => (s.point i).map PointRec.view

/-- The view takes what the channel and point records hold (R81, R82, R102). -/
def State.refreshView (s : State) : State :=
  { s with sections := { s.sections with channelViews := s.viewOfChannels, pointViews := s.viewOfPoints } }

/-! ## Carry-over (R41, R65, R78, R130, R162) -/

/-- A node entry keeps its record: in use in both sets with the same address and kind (R41). -/
def nodeKept (old new : Tables) (i : Nat) : Bool :=
  old.nodeUsed i && new.nodeUsed i && (old.node i).address = (new.node i).address &&
    (old.node i).kind = (new.node i).kind

/-- A channel entry is unchanged: in use in both sets with every field the same (R162); its marker byte may differ. -/
def channelUnchanged (old new : Tables) (i : Nat) : Bool :=
  old.channelUsed i && new.channelUsed i && { old.channel i with inUse := 1 } = { new.channel i with inUse := 1 }

/-- A point entry is unchanged (R162). -/
def pointUnchanged (old new : Tables) (i : Nat) : Bool :=
  old.pointUsed i && new.pointUsed i && { old.point i with inUse := 1 } = { new.point i with inUse := 1 }

/-- A breaker entry keeps its position: in use in both sets, naming the same node entry and breaker number, and its node entry
kept its record (R130). -/
def breakerKept (old new : Tables) (i : Nat) : Bool :=
  old.breakerUsed i && new.breakerUsed i && (old.breaker i).nodeOf = (new.breaker i).nodeOf &&
    (old.breaker i).number = (new.breaker i).number &&
    (match (new.breaker i).nodeOf with
     | some n => nodeKept old new n
     | none => false)

/-- Node records are carried over from the old active set (R41). -/
def State.carryNodes (s : State) (old : Tables) : State :=
  let new := s.tables
  { s with nodes := Vector.ofFn fun i =>
      if nodeKept old new i then s.node i else if new.nodeUsed i then some .absent else none }

/-- Channel records are carried over (R65): one that is reset is NORMAL when its node is LIVE after the carry-over of the nodes. -/
def State.carryChannels (s : State) (old : Tables) : State :=
  let new := s.tables
  { s with channels := Vector.ofFn fun i =>
      if channelUnchanged old new i && nodeKept old new (new.channel i).node.toNat then s.channel i
      else if new.channelUsed i then
        some (.fresh (new.channel i) (if s.nodeLive (new.channel i).node.toNat then .normal else .noData))
      else none }

/-- Point records are carried over (R78). -/
def State.carryPoints (s : State) (old : Tables) : State :=
  let new := s.tables
  { s with points := Vector.ofFn fun i =>
      if pointUnchanged old new i && nodeKept old new (new.point i).node.toNat then s.point i
      else if new.pointUsed i then some ⟨0, if s.nodeLive (new.point i).node.toNat then .normal else .noData⟩
      else none }

/-- Breaker records are carried over (R130). -/
def State.carryBreakers (s : State) (old : Tables) : State :=
  let new := s.tables
  let positions : Vector (Option Position) Config.breakerCount := Vector.ofFn fun i =>
    if breakerKept old new i then s.position i else if new.breakerUsed i then some .unknown else none
  { s with trip := { s.trip with positions := positions } }

/-! ## The swap (R161) -/

/-- The Section Evaluator refreshes its view and recomputes every section, in ascending number (R102). -/
def State.recomputeSections (s : State) : State :=
  (List.range Config.sectionCount).foldl State.recompute s.refreshView

/-- The Setting Store begins to write the new active set (R188): the valid marker is cleared and the image written. The image
is not used while the marker is clear (log entry 7). -/
def State.beginStoreWrite (s : State) : State :=
  { s with store := { state := .writing, marker := false, image := s.tables } }

/-- The TABLES_ACTIVATED record (R161): the device mode held before. -/
def activatedRecord (before : DeviceMode) : RecordBody :=
  { kind := .tablesActivated, category := .notice, value := some (value2 0 before.code) }

/-- The swap, steps 1 to 8 of R161 in their order. -/
def State.swap (s : State) : State :=
  let old := s.tables
  let before := s.agent.mode
  let s := { s with agent := { s.agent with active := s.agent.shadow, mode := .protecting } }
  let s := ((s.carryNodes old).carryChannels old).carryPoints old
  let s := (s.carryBreakers old).record (activatedRecord before)
  (s.loopActivation.recomputeSections).beginStoreWrite

end Sys2Proof.Machine
end

