-- ==== Sys2Proof/Machine/Supply.lean ====
section
/-! DEFINITION. The Setting Store's completion, the Supply Monitor, both resets and the Timebase (chapter Setting Store, Supply
and SYSOK; R6, R26, R128, R129, R163, R177, R185, R187 to R190). -/

namespace Sys2Proof.Machine

/-! ## Setting Store (R188) -/

/-- The STORE_RESULT record (R188). -/
def storeRecord (agrees : Bool) : RecordBody :=
  { kind := .storeResult, category := if agrees then .notice else .alarm,
    value := some (value2 0 (if agrees then 1 else 2)) }

/-- The store write completes (R188). -/
def State.storeComplete (s : State) (agrees : Bool) : State :=
  if s.store.state = .writing then
    ({ s with store := { s.store with
        state := if agrees then .valid else .failed
        marker := agrees } } : State).record (storeRecord agrees)
  else s

/-! ## Supply warning (R189) -/

/-- The SUPPLY_LOW record (R189). -/
def supplyLowRecord : RecordBody :=
  { kind := .supplyLow, category := .alarm, value := some (BitVec.ofNat 32 Config.warningFallMv) }

/-- The SUPPLY_OK record (R189). -/
def supplyOkRecord : RecordBody :=
  { kind := .supplyOk, category := .notice, value := some (BitVec.ofNat 32 Config.warningRiseMv) }

/-- The supply falls below 2.95 V (R189). -/
def State.warningFall (s : State) : State :=
  if s.supply.low then s
  else ({ s with supply := { s.supply with low := true } } : State).record supplyLowRecord

/-- The supply rises above 3.05 V (R189). -/
def State.warningRise (s : State) : State :=
  if s.supply.low then ({ s with supply := { s.supply with low := false } } : State).record supplyOkRecord else s

/-! ## Resets -/

/-- The RESET record (R185). -/
def resetRecord (cause : ResetCause) : RecordBody :=
  { kind := .reset, category := .notice, value := some (value2 0 cause.code) }

/-- The records of the blocks take their values after a reset, from the active set: nodes ABSENT, channels and points NO_DATA,
positions UNKNOWN, the lens test abandoned, and the view with them (R29, R44, R69, R81, R82, R105, R133). -/
def State.freshRecords (s : State) : State :=
  ({ s with
    nodes := s.tables.freshNodes
    channels := s.tables.freshChannels
    points := s.tables.freshPoints
    trip := { s.trip with positions := s.tables.freshPositions }
    lens := .reset } : State).refreshView

/-- A section's state after a reset, for a section that is not kept TRIPPED (R81, R82). -/
def State.resetSectionState (s : State) (i : Nat) (block : Bool) : SectionState :=
  if s.sectionInactive i then .inactive else if block then .blocked else .armed

/-- Section records after a hard reset (R81). -/
def State.hardSections (s : State) : State :=
  let records : Vector SectionRec Config.sectionCount := Vector.ofFn fun i =>
    ⟨s.resetSectionState i false, false, false, .stopped, false, false⟩
  { s with sections := { s.sections with records := records } }

/-- Section records after a soft reset (R82): the flags and every TRIPPED section are kept. -/
def State.softSections (s : State) : State :=
  let records : Vector SectionRec Config.sectionCount := Vector.ofFn fun i =>
    let r := s.sectionRec i
    if r.state = .tripped then r
    else ⟨s.resetSectionState i r.block, r.maintenance, r.block, .stopped, false, false⟩
  { s with sections := { s.sections with records := records } }

/-- A hard reset begins (R190): the frame being sent is cut off and the queues are lost (R6), the active trip list is empty and
every trip line inactive at once (R128). It remembers whether the supply has been below 2.70 V. -/
def State.beginHardReset (s : State) (dipped : Bool) : State :=
  match s.hardReset with
  | some h => { s with hardReset := some { h with dipped := h.dipped || dipped } }
  | none =>
    { s with
      hardReset := some ⟨dipped, false⟩
      loop := { s.loop with sending := none, tripQ := [], controlQ := [], routineQ := [] }
      trip := { s.trip with orders := [], lines := Vector.replicate _ .reset } }

/-- During a hard reset the supply falls below the retention level (R190). A supply below 1.8 V is below 2.70 V, so outside a
hard reset one begins with it. -/
def State.loseRetention (s : State) : State :=
  let s := s.beginHardReset true
  { s with hardReset := s.hardReset.map fun h => { h with belowRetention := true } }

/-- The reset cause recorded at the end of a hard reset (R190). -/
def HardReset.cause (h : HardReset) : ResetCause :=
  if h.belowRetention then .powerOn else if h.dipped then .supplyDip else .pin

/-- The Setting Store reads its valid marker (R187): the image becomes both sets and the mode PROTECTING, or both sets are empty
and the mode UNCONFIGURED. The Management Agent takes its hard-reset values with it (R148, R166). -/
def State.readStore (s : State) : State :=
  let t : Tables := if s.store.marker then s.store.image else .empty
  { s with
    store := { s.store with state := if s.store.marker then .valid else .invalid }
    agent :=
      ⟨if s.store.marker then .protecting else .unconfigured, t, t, .idle, none, false, [], false⟩ }

/-- A hard reset ends with the supply at `millivolts` (R190): the store is read, every block takes its hard-reset values, the
RESET record is taken first, then a SUPPLY_LOW record if the supply is at or below 3.05 V (R185, R190), and the Loop Port
enters CLAIMING (R6, R7). -/
def State.finishHardReset (s : State) (h : HardReset) (millivolts : Nat) : State :=
  let s := s.readStore
  let low : Bool := millivolts ≤ Config.warningRiseMv
  let s := { s with
    loop := .reset
    pool := .empty
    trip := { s.trip with orders := [], lines := Vector.replicate _ .reset }
    supply := ⟨low, h.cause⟩
    deviceTime := 0
    hardReset := none }
  let s := (s.freshRecords.hardSections).record (resetRecord h.cause)
  (if low then s.record supplyLowRecord else s).enterClaiming

/-- RESETN is high and the supply stands at `millivolts` (R190): a hard reset in progress ends if that is above 2.70 V. -/
def State.endHardReset (s : State) (millivolts : Nat) : State :=
  match s.hardReset with
  | some h => if Config.dipResetMv < millivolts then s.finishHardReset h millivolts else s
  | none => s

/-- The Loop Port's values after a soft reset, before it enters CLAIMING (R6, R26): its output sequence number is kept. -/
def LoopPort.softReset (l : LoopPort) : LoopPort := { LoopPort.reset with outSeq := l.outSeq }

/-- The Management Agent's values after a soft reset (R148, R166, R177). -/
def Agent.softReset (a : Agent) : Agent := ⟨a.mode, a.active, a.active, .idle, none, false, [], false⟩

/-- The soft reset takes effect (R26, R82, R129, R163, R177): orders, trip lines, lockouts, tables, mode, records and device
time are kept, and everything derived from the loop is cleared. -/
def State.performSoftReset (s : State) : State :=
  let s : State := { s with
    loop := s.loop.softReset
    agent := s.agent.softReset
    trip := { s.trip with orders := s.trip.orders.map fun (o : Order) => { o with waiting := false } }
    supply := { s.supply with cause := .soft } }
  ((s.freshRecords.softSections).record (resetRecord .soft)).enterClaiming

/-! ## The end of a sending (R8, R23, R26) -/

/-- The frame is the response OK to a SOFT_RESET (R26, R176). -/
def TxFrame.isSoftResetOk : TxFrame → Bool
  | .response r => r.code = 0x31 && r.result = .ok
  | _ => false

/-- The frame being sent is the response to the SOFT_RESET that is pending. -/
def State.sendingSoftReset (s : State) : Bool :=
  s.agent.softResetPending &&
    (match s.loop.sending with
     | some x => x.frame.isSoftResetOk
     | none => false)

/-- The sending of the current claim's CLAIM frame completes, and the claim timer starts (R8). -/
def State.claimSent (s : State) (x : Sending) : State :=
  if x.frame = .control .claim ∧ s.loop.outstanding = some x.seq then
    s.setLoop { s.loop with claimTimer := .running Config.claimTime }
  else s

/-- The sending of the frame at LOOP_TX completes (R23): the soft reset takes effect if it was the response to a SOFT_RESET
(R26); otherwise the arbiter starts the next frame, and the blocks that hold refused frames are told of the room. -/
def State.sendingCompletes (s : State) : State :=
  match s.loop.sending with
  | none => s
  | some x => if s.sendingSoftReset then s.performSoftReset else ((s.claimSent x).startNext).settleRoom

/-! ## The Timebase (R190; log entry 2) -/

/-- One device time unit passes for a timer: a running timer has one unit less to run, and stays at 0 once it is due. -/
def Timer.tick : Timer → Timer
  | .running (n + 1) => .running n
  | t => t

/-- An order's age in device time units does not go beyond 65535 ms (R109). -/
def ageMax : Nat := Config.ms Config.wordMax

/-- One device time unit passes for an order. -/
def Order.tick (o : Order) : Order :=
  { o with age := min ageMax (o.age + 1), failure := o.failure.tick, resend := o.resend.tick }

/-- One device time unit of 100 microseconds passes: device time advances, wrapping after 4294967295 (R190), every timer runs and
every order ages. During a hard reset nothing runs. -/
def State.tick (s : State) : State :=
  if s.hardReset.isSome then s
  else
    let records : Vector SectionRec Config.sectionCount := Vector.ofFn fun i =>
      { s.sectionRec i with persistence := (s.sectionRec i).persistence.tick }
    let lines : Vector TripLine Config.lineCount := Vector.ofFn fun i =>
      { s.line i with pulse := (s.line i).pulse.tick }
    { s with
      deviceTime := s.deviceTime + 1
      loop := { s.loop with
        sendTimer := s.loop.sendTimer.tick
        supervisionTimer := s.loop.supervisionTimer.tick
        beaconTimer := s.loop.beaconTimer.tick
        claimTimer := s.loop.claimTimer.tick }
      nodes := Vector.ofFn fun i => (s.node i).map fun r => { r with timer := r.timer.tick }
      sections := { s.sections with records := records }
      trip := { s.trip with orders := s.trip.orders.map Order.tick, lines := lines }
      lens := { s.lens with startWait := s.lens.startWait.tick } }

/-- The first of a block's commands whose timer is due. -/
def firstDue (n : Nat) (due : Nat → Bool) (command : Nat → Instr) : Option Instr :=
  ((List.range n).find? due).map command

/-- The order whose timer is due, in creation order. -/
def State.firstDueOrder (s : State) (due : Order → Bool) (command : Nat → Instr) : Option Instr :=
  (s.trip.orders.find? fun o => due o).map fun o => command o.breaker

/-- The timer expiry that is due, if any; among several the order is the model's (log entry 2). -/
def State.dueExpiry (s : State) : Option Instr :=
  if s.hardReset.isSome then none
  else
    (if s.loop.claimTimer.isDue then some .claimTimerExpiry else none).or <|
    (if s.loop.supervisionTimer.isDue then some .supervisionTimerExpiry else none).or <|
    (if s.loop.sendTimer.isDue then some .supervisionSendTimerExpiry else none).or <|
    (if s.loop.beaconTimer.isDue then some .beaconTimerExpiry else none).or <|
    (firstDue Config.nodeCount
      (fun i => match s.node i with
        | some r => r.live = .live && r.timer.isDue
        | none => false) .staleTimerExpiry).or <|
    (firstDue Config.sectionCount (fun i => (s.sectionRec i).persistence.isDue) .persistenceTimerExpiry).or <|
    (s.firstDueOrder (fun o => o.state = .issued && o.failure.isDue) .failureTimerExpiry).or <|
    (s.firstDueOrder (fun o => o.resend.isDue) .resendTimerExpiry).or <|
    (firstDue Config.lineCount (fun l => (s.line l).pulse.isDue) .minimumPulseTimerExpiry).or <|
    if s.lens.startWait.isDue then some .startWaitTimerExpiry else none

end Sys2Proof.Machine
end

