-- ==== Sys2Proof/Machine/Agent.lean ====
section
/-! DEFINITION. The Management Agent (chapter Management Requests; R154 to R160): taking a request, answering it, what each
request does, and the completion of a validation. -/

namespace Sys2Proof.Machine

/-! ## The exchange (R167, R168) -/

/-- A built response is offered to the ROUTINE queue; refused, it joins the tail of the held responses (R168). -/
def State.respond (s : State) (r : Response) : State :=
  if s.routineRoom then s.pushRoutine r
  else { s with agent := { s.agent with held := s.agent.held ++ [r] } }

/-- What serving a request gives: the state with its effects, and its result with the data, or none for an ACTIVATE whose answer
waits for the validation (R158, R167). -/
abbrev Served := State × Option (Result × List Byte)

/-- A request refused with a result and no further data: nothing changes (R169). -/
def State.refuse (s : State) (r : Result) : Served := (s, some (r, []))

/-- A request answered with a result and data. -/
def State.answer (s : State) (r : Result) (data : List Byte) : Served := (s, some (r, data))

/-- A request reaches the Management Agent (R167): discarded while responses are held or a soft reset is pending; otherwise
taken, its response built and offered. A frame with source 0 is none of the gateway's: it is discarded (R3). -/
def State.takeRequest (s : State) (source tag code : Byte) (serve : State → Served) : State :=
  if source = 0 ∨ s.agent.held ≠ [] ∨ s.agent.softResetPending then s
  else
    match serve s with
    | (s', some (r, data)) => s'.respond ⟨source, tag, code, r, data⟩
    | (s', none) => s'

/-! ## Reading the part (R170 to R174) -/

/-- The READ_STATUS data (R170, R193). -/
def State.statusData (s : State) : List Byte :=
  wordBytes (BitVec.ofNat 16 Config.partCode) ++
    [Config.tableFormat, byte s.agent.mode.code, s.agent.state.code, s.loop.state.code, s.loop.result.code,
     byte s.loop.result.position, byte (s.loop.breakPos.getD 0), byte s.supply.cause.code, s.store.state.code,
     s.lens.state.code] ++
    ((List.range Config.sectionCount).map fun i => (s.sectionRec i).statusByte) ++
    [flagByte s.supply.low, byte s.pool.tripChain.length, flagByte s.pool.tripTruncated,
     byte s.pool.generalChain.length, flagByte s.pool.generalTruncated, byte s.trip.orders.length] ++
    word32Bytes s.deviceTime

/-- READ_STATUS (R169, R170). -/
def serveReadStatus (params : List Byte) (s : State) : Served :=
  if params = [] then s.answer .ok s.statusData else s.refuse .badRequest

/-- The chain a code names (R193). -/
def Chain.ofCode (b : Byte) : Option Chain := if b = 0 then some .trip else if b = 1 then some .general else none

/-- The READ_EVENTS data: the number of records, the truncated marker, and the records, oldest first (R171, R193). -/
def EventPool.eventsData (p : EventPool) (c : Chain) (max : Nat) : List Byte :=
  byte ((p.chain c).take max).length :: flagByte (p.truncated c) ::
    ((p.chain c).take max).flatMap fun x => x.record.image

/-- READ_EVENTS (R169, R171, R184). -/
def serveReadEvents (params : List Byte) (s : State) : Served :=
  match params with
  | [chain, max] =>
    match Chain.ofCode chain with
    | some c =>
      if 1 ≤ max.toNat ∧ max.toNat ≤ 8 then
        ({ s with pool := s.pool.remove c max.toNat } : State).answer .ok (s.pool.eventsData c max.toNat)
      else s.refuse .badRequest
    | none => s.refuse .badRequest
  | _ => s.refuse .badRequest

/-- The channel's data (R66, R172, R193): a level that is none is reported as 0. -/
def ChannelRec.data (r : ChannelRec) : List Byte :=
  wordBytes (BitVec.ofNat 16 (r.raw.getD 0)) ++ wordBytes (BitVec.ofNat 16 (r.comp.getD 0)) ++
    wordBytes (BitVec.ofNat 16 r.integ) ++ wordBytes (BitVec.ofNat 16 r.gain) ++
    [r.light.code, r.cond.code, flagByte r.flicker]

/-- READ_CHANNEL (R169, R172). -/
def serveReadChannel (params : List Byte) (s : State) : Served :=
  match params with
  | [index] =>
    if s.agent.mode = .unconfigured then s.refuse .unconfigured
    else if markerSet (s.channelEntry index.toNat).inUse then
      match s.channel index.toNat with
      | some r => s.answer .ok r.data
      | none => s.refuse .badIndex
    else s.refuse .badIndex
  | _ => s.refuse .badRequest

/-- An order image (R193). -/
def State.orderImage (s : State) (o : Order) : List Byte :=
  [byte o.breaker, byte o.state.code] ++ wordBytes o.causes ++ [byte o.depth] ++ word32Bytes o.issueTime ++
    wordBytes (BitVec.ofNat 16 o.ageMs) ++ [((s.position o.breaker).getD .unknown).code]

/-- READ_ORDERS (R169, R173): at most twelve orders, from a position in creation order. -/
def serveReadOrders (params : List Byte) (s : State) : Served :=
  match params with
  | [start] =>
    if s.agent.mode = .unconfigured then s.refuse .unconfigured
    else if Config.breakerCount ≤ start.toNat then s.refuse .badIndex
    else
      s.answer .ok (byte s.trip.orders.length :: start ::
        ((s.trip.orders.drop start.toNat).take 12).flatMap s.orderImage)
  | _ => s.refuse .badRequest

/-- The set a code names: the active or the shadow set (R193). -/
def Agent.setOf (a : Agent) (b : Byte) : Option Tables :=
  if b = 0 then some a.active else if b = 1 then some a.shadow else none

/-- How many whole images of a table fit in a response beside its seven leading bytes (R174, R193). -/
def TableId.fits (t : TableId) : Nat := (Config.payloadMax - 7) / t.imageLength

/-- READ_TABLE (R169, R174). -/
def serveReadTable (params : List Byte) (s : State) : Served :=
  match params with
  | [table, set, first, count] =>
    match TableId.ofCode table, s.agent.setOf set with
    | some t, some tables =>
      if count = 0 then s.refuse .badRequest
      else if t.size < first.toNat + count.toNat then s.refuse .badIndex
      else
        let n := min count.toNat t.fits
        s.answer .ok (table :: set :: first :: byte n ::
          (List.range n).flatMap fun i => tables.image t (first.toNat + i))
    | _, _ => s.refuse .badRequest
  | _ => s.refuse .badRequest

/-! ## The shadow set (R154, R155) -/

/-- Entry images written one after another from an index (R154). -/
def Tables.writeAll (t : Tables) (table : TableId) : Nat → List (List Byte) → Tables
  | _, [] => t
  | i, x :: xs => (t.write table i x).writeAll table (i + 1) xs

/-- WRITE_SHADOW (R154, R169). -/
def serveWriteShadow (params : List Byte) (s : State) : Served :=
  match params with
  | table :: first :: rest =>
    match TableId.ofCode table with
    | none => s.refuse .badRequest
    | some t =>
      if rest = [] ∨ rest.length % t.imageLength ≠ 0 then s.refuse .badRequest
      else if s.agent.state = .validating then s.refuse .busy
      else if t.size < first.toNat + rest.length / t.imageLength then s.refuse .badIndex
      else
        ({ s with agent := { s.agent with
            shadow := s.agent.shadow.writeAll t first.toNat (pieces t.imageLength rest) } } : State).answer .ok
          [table, first, byte (rest.length / t.imageLength)]
  | _ => s.refuse .badRequest

/-- DISCARD_SHADOW (R155, R169). -/
def serveDiscardShadow (params : List Byte) (s : State) : Served :=
  if params ≠ [] then s.refuse .badRequest
  else if s.agent.state = .validating then s.refuse .busy
  else ({ s with agent := { s.agent with shadow := s.agent.active } } : State).answer .ok []

/-! ## Activation (R158 to R160) -/

/-- Some section is LIGHT or TRIPPED (R158). -/
def State.anyLightOrTripped (s : State) : Bool :=
  (List.range Config.sectionCount).any fun i => (s.sectionRec i).state = .light || (s.sectionRec i).state = .tripped

/-- The switchgear is quiet enough to activate (R145, R158): no order, no section LIGHT or TRIPPED, no lens test in flight. -/
def State.quiet (s : State) : Bool :=
  s.trip.orders = [] && !s.anyLightOrTripped && (s.lens.state = .idle)

/-- ACTIVATE (R158, R169): refused at once, or VALIDATING with the answer to come. -/
def serveActivate (source tag : Byte) (params : List Byte) (s : State) : Served :=
  if params ≠ [] then s.refuse .badRequest
  else if s.agent.state = .validating then s.refuse .busy
  else if s.store.state = .writing then s.refuse .storeBusy
  else if s.quiet = false then s.refuse .refusedState
  else ({ s with agent := { s.agent with
      state := .validating, activation := some ⟨tag, source⟩, disturbed := false } }, none)

/-- The agent returns to IDLE with no pending activation (R160). -/
def State.endValidation (s : State) : State :=
  { s with agent := { s.agent with state := .idle, activation := none, disturbed := false } }

/-- The answer to the pending ACTIVATE (R160). -/
def PendingActivation.response (p : PendingActivation) (r : Result) (data : List Byte) : Response :=
  ⟨p.source, p.tag, 0x12, r, data⟩

/-- The validation completes (R160): REFUSED_STATE when it was disturbed, INVALID_TABLES with the first failure, or the swap
and OK. -/
def State.validationCompletes (s : State) : State :=
  match s.agent.state, s.agent.activation with
  | .validating, some p =>
    if s.agent.disturbed then s.endValidation.respond (p.response .refusedState [])
    else
      match s.agent.shadow.validate with
      | some f =>
        s.endValidation.respond (p.response .invalidTables [byte f.table.code, byte f.index, byte f.check])
      | none => s.swap.endValidation.respond (p.response .ok [])
  | _, _ => s

/-! ## Section requests, the lens test, the loop and the reset (R96, R134, R175, R176) -/

/-- The answer that another block gives to a request. -/
def served (x : State × Result) : Served := (x.1, some (x.2, []))

/-- RELEASE (R96, R100, R169). -/
def serveRelease (params : List Byte) (s : State) : Served :=
  match params with
  | [sect] => served (s.release sect.toNat)
  | _ => s.refuse .badRequest

/-- The on or off of SET_MAINTENANCE and SET_BLOCK (R169, R193). -/
def onOff (b : Byte) : Option Bool := if b = 0 then some false else if b = 1 then some true else none

/-- SET_MAINTENANCE (R96, R99, R169). -/
def serveSetMaintenance (params : List Byte) (s : State) : Served :=
  match params with
  | [sect, value] =>
    match onOff value with
    | some on => served (s.setMaintenance sect.toNat on)
    | none => s.refuse .badRequest
  | _ => s.refuse .badRequest

/-- SET_BLOCK (R96 to R98, R169). -/
def serveSetBlock (params : List Byte) (s : State) : Served :=
  match params with
  | [sect, value] =>
    match onOff value with
    | some true => served (s.setBlockOn sect.toNat)
    | some false => served (s.setBlockOff sect.toNat)
    | none => s.refuse .badRequest
  | _ => s.refuse .badRequest

/-- TEST_LENS (R134, R135, R169). -/
def serveTestLens (params : List Byte) (s : State) : Served :=
  match params with
  | [channel] => served (s.testLens channel.toNat)
  | _ => s.refuse .badRequest

/-- RECLAIM (R18, R169, R175). -/
def serveReclaim (params : List Byte) (s : State) : Served :=
  if params = [] then s.enterClaiming.settleRoom.answer .ok [] else s.refuse .badRequest

/-- SOFT_RESET (R169, R176). -/
def serveSoftReset (params : List Byte) (s : State) : Served :=
  if params = [] then
    ({ s with agent := { s.agent with softResetPending := true } } : State).answer .ok []
  else s.refuse .badRequest

/-! ## Requests by their code (R193) -/

/-- The request codes (R193). -/
inductive RequestCode where
  | readStatus | readEvents | readChannel | readOrders | readTable | writeShadow | discardShadow | activate
  | release | setMaintenance | setBlock | testLens | reclaim | softReset
  deriving DecidableEq, Repr

/-- Code values (R193). -/
def RequestCode.code : RequestCode → Byte
  | .readStatus => 0x01 | .readEvents => 0x02 | .readChannel => 0x03 | .readOrders => 0x04 | .readTable => 0x05
  | .writeShadow => 0x10 | .discardShadow => 0x11 | .activate => 0x12 | .release => 0x20
  | .setMaintenance => 0x21 | .setBlock => 0x22 | .testLens => 0x23 | .reclaim => 0x30 | .softReset => 0x31

/-- The request a code names, none for an unknown code (R167, R193). -/
def RequestCode.ofCode (b : Byte) : Option RequestCode :=
  [.readStatus, .readEvents, .readChannel, .readOrders, .readTable, .writeShadow, .discardShadow, .activate, .release,
   .setMaintenance, .setBlock, .testLens, .reclaim, .softReset].find? fun c => c.code = b

/-- A request served by its code; an unknown code is answered BAD_REQUEST (R167, R169). -/
def serveCode (code source tag : Byte) (params : List Byte) (s : State) : Served :=
  match RequestCode.ofCode code with
  | some .readStatus => serveReadStatus params s
  | some .readEvents => serveReadEvents params s
  | some .readChannel => serveReadChannel params s
  | some .readOrders => serveReadOrders params s
  | some .readTable => serveReadTable params s
  | some .writeShadow => serveWriteShadow params s
  | some .discardShadow => serveDiscardShadow params s
  | some .activate => serveActivate source tag params s
  | some .release => serveRelease params s
  | some .setMaintenance => serveSetMaintenance params s
  | some .setBlock => serveSetBlock params s
  | some .testLens => serveTestLens params s
  | some .reclaim => serveReclaim params s
  | some .softReset => serveSoftReset params s
  | none => s.refuse .badRequest

/-- A MGMT_REQUEST frame's payload reaches the Management Agent (R167): too short for a tag and a code, it is discarded. -/
def State.requestFrame (s : State) (source : Byte) : List Byte → State
  | tag :: code :: params => s.takeRequest source tag code (serveCode code source tag params)
  | _ => s

/-! ## Receiving frames (R1 to R4) -/

/-- A good frame is sorted by its source and its kind (R3, R4). -/
def State.goodFrame (s : State) (f : Frame) : State :=
  if f.source = 0 then
    match FrameKind.ofCode f.kind with
    | some .supervision => s.supervisionReturns
    | some .beacon => s.beaconReturns
    | some .claim => s.claimReturns f.seq f.payload
    | _ => s
  else if f.dest ≠ 0 then s
  else
    match FrameKind.ofCode f.kind with
    | some .lightSample => s.nodeFrame .light f.source f.seq f.payload
    | some .currentSample => s.nodeFrame .current f.source f.seq f.payload
    | some .position => s.nodeFrame .breaker f.source f.seq f.payload
    | some .request => s.requestFrame f.source f.payload
    | _ => s

/-- A frame's bytes have arrived at LOOP_RX (R1, R2): a frame that fails its length or its CRC is discarded. -/
def State.receive (s : State) (bytes : List Byte) : State :=
  match frameOf bytes with
  | some f => s.goodFrame f
  | none => s

end Sys2Proof.Machine
end

