-- ==== Sys2Proof/Machine/LoopCommands.lean ====
section
/-! DEFINITION. The meanings of the commands of one family: the frames at LOOP_RX and the events at the Loop Port, and the frames that wait for room (chapter The Sensor Loop). -/

namespace Sys2Proof.Machine

/-- FRAME_ARRIVAL (R1 to R4): a frame that R1 or R2 discards has no effect, nor has a good frame for no block; a good frame
that another row handles has that row's effect (log entry 4). -/
def execFrameArrival (bytes : List Byte) (s : State) : Outcome :=
  .next (s.outsideReset fun s => s.receive bytes)

/-- SUPERVISION (R14). -/
def execSupervision (s : State) : Outcome :=
  .next (s.outsideReset fun s => s.supervisionReturns)

/-- BEACON (R17, R7). -/
def execBeacon (s : State) : Outcome :=
  .next (s.outsideReset fun s => s.beaconReturns)

/-- CLAIM (R9, R10, R12). -/
def execClaim (seq : Byte) (payload : List Byte) (s : State) : Outcome :=
  .next (s.outsideReset fun s => s.claimReturns seq payload)

/-- CLAIM_TIMER_EXPIRY (R11, R16). -/
def execClaimTimerExpiry (s : State) : Outcome :=
  .next (s.outsideReset fun s => s.claimExpiry)

/-- SUPERVISION_SEND_TIMER_EXPIRY (R13). -/
def execSupervisionSendTimerExpiry (s : State) : Outcome :=
  .next (s.outsideReset fun s => s.supervisionSendExpiry)

/-- SUPERVISION_TIMER_EXPIRY (R15, R16). -/
def execSupervisionTimerExpiry (s : State) : Outcome :=
  .next (s.outsideReset fun s => s.supervisionExpiry)

/-- BEACON_TIMER_EXPIRY (R17). -/
def execBeaconTimerExpiry (s : State) : Outcome :=
  .next (s.outsideReset fun s => s.beaconExpiry)

/-- SENDING_COMPLETE (R23, R8, R26). -/
def execSendingComplete (s : State) : Outcome :=
  .next (s.outsideReset fun s => s.sendingCompletes)

/-- CLAIM_QUEUED_AT_ROOM (R7). -/
def execClaimQueuedAtRoom (s : State) : Outcome :=
  .next (s.outsideReset fun s => s.queueWaitingClaim)

/-- HELD_TEST_FRAME_QUEUED (R136). -/
def execHeldTestFrameQueued (s : State) : Outcome :=
  .next (s.outsideReset fun s => s.queueHeldTests)

/-- HELD_RESPONSE_QUEUED (R168). -/
def execHeldResponseQueued (s : State) : Outcome :=
  .next (s.outsideReset fun s => s.queueHeldResponses)

end Sys2Proof.Machine
end

