-- ==== Sys2Proof/Machine/RequestCommands.lean ====
section
/-! DEFINITION. The meanings of the commands of one family: the management requests and the completion of a validation (chapters Management Requests, Protection Tables). -/

namespace Sys2Proof.Machine

/-- READ_STATUS (R167 to R170). -/
def execReadStatus (source tag : Byte) (params : List Byte) (s : State) : Outcome :=
  .next (s.outsideReset fun s => s.takeRequest source tag 0x01 (serveReadStatus params))

/-- READ_EVENTS (R171, R184). -/
def execReadEvents (source tag : Byte) (params : List Byte) (s : State) : Outcome :=
  .next (s.outsideReset fun s => s.takeRequest source tag 0x02 (serveReadEvents params))

/-- READ_CHANNEL (R172, R66). -/
def execReadChannel (source tag : Byte) (params : List Byte) (s : State) : Outcome :=
  .next (s.outsideReset fun s => s.takeRequest source tag 0x03 (serveReadChannel params))

/-- READ_ORDERS (R173, R131). -/
def execReadOrders (source tag : Byte) (params : List Byte) (s : State) : Outcome :=
  .next (s.outsideReset fun s => s.takeRequest source tag 0x04 (serveReadOrders params))

/-- READ_TABLE (R174). -/
def execReadTable (source tag : Byte) (params : List Byte) (s : State) : Outcome :=
  .next (s.outsideReset fun s => s.takeRequest source tag 0x05 (serveReadTable params))

/-- WRITE_SHADOW (R154). -/
def execWriteShadow (source tag : Byte) (params : List Byte) (s : State) : Outcome :=
  .next (s.outsideReset fun s => s.takeRequest source tag 0x10 (serveWriteShadow params))

/-- DISCARD_SHADOW (R155). -/
def execDiscardShadow (source tag : Byte) (params : List Byte) (s : State) : Outcome :=
  .next (s.outsideReset fun s => s.takeRequest source tag 0x11 (serveDiscardShadow params))

/-- ACTIVATE (R158). -/
def execActivate (source tag : Byte) (params : List Byte) (s : State) : Outcome :=
  .next (s.outsideReset fun s => s.takeRequest source tag 0x12 (serveActivate source tag params))

/-- VALIDATION_COMPLETE (R160, R161). -/
def execValidationComplete (s : State) : Outcome :=
  .next (s.outsideReset fun s => s.validationCompletes)

/-- RELEASE (R96, R100, R126). -/
def execRelease (source tag : Byte) (params : List Byte) (s : State) : Outcome :=
  .next (s.outsideReset fun s => s.takeRequest source tag 0x20 (serveRelease params))

/-- SET_MAINTENANCE (R96, R99). -/
def execSetMaintenance (source tag : Byte) (params : List Byte) (s : State) : Outcome :=
  .next (s.outsideReset fun s => s.takeRequest source tag 0x21 (serveSetMaintenance params))

/-- SET_BLOCK_ON (R96, R97). -/
def execSetBlockOn (source tag sect : Byte) (s : State) : Outcome :=
  .next (s.outsideReset fun s => s.takeRequest source tag 0x22 (serveSetBlock [sect, 1]))

/-- SET_BLOCK_OFF (R96, R98). -/
def execSetBlockOff (source tag sect : Byte) (s : State) : Outcome :=
  .next (s.outsideReset fun s => s.takeRequest source tag 0x22 (serveSetBlock [sect, 0]))

/-- TEST_LENS (R134, R135). -/
def execTestLens (source tag : Byte) (params : List Byte) (s : State) : Outcome :=
  .next (s.outsideReset fun s => s.takeRequest source tag 0x23 (serveTestLens params))

/-- RECLAIM (R18, R175). -/
def execReclaim (source tag : Byte) (params : List Byte) (s : State) : Outcome :=
  .next (s.outsideReset fun s => s.takeRequest source tag 0x30 (serveReclaim params))

/-- SOFT_RESET (R176). -/
def execSoftReset (source tag : Byte) (params : List Byte) (s : State) : Outcome :=
  .next (s.outsideReset fun s => s.takeRequest source tag 0x31 (serveSoftReset params))

/-- UNKNOWN_REQUEST_CODE (R167, R169): a code that is none of R193's is answered BAD_REQUEST; a known code is served by it. -/
def execUnknownRequestCode (source tag code : Byte) (params : List Byte) (s : State) : Outcome :=
  .next (s.outsideReset fun s => s.takeRequest source tag code (serveCode code source tag params))

end Sys2Proof.Machine
end

