-- ==== Sys2Proof/Machine/ResetCommands.lean ====
section
/-! DEFINITION. The meanings of the commands of one family: the Setting Store, the supply and both resets (chapter Setting Store, Supply and SYSOK). -/

namespace Sys2Proof.Machine

/-- STORE_WRITE_COMPLETE (R188). -/
def execStoreWriteComplete (agrees : Bool) (s : State) : Outcome :=
  .next (s.outsideReset fun s => s.storeComplete agrees)

/-- SOFT_RESET_TAKES_EFFECT (R26, R177): the sending of the response to the pending SOFT_RESET completes. -/
def execSoftResetTakesEffect (s : State) : Outcome :=
  .next (s.outsideReset fun s => if s.sendingSoftReset then s.performSoftReset else s)

/-- SUPPLY_WARNING_FALL (R189). -/
def execSupplyWarningFall (s : State) : Outcome :=
  .next (s.outsideReset fun s => s.warningFall)

/-- SUPPLY_WARNING_RISE (R189). -/
def execSupplyWarningRise (s : State) : Outcome :=
  .next (s.outsideReset fun s => s.warningRise)

/-- SUPPLY_DIP_RESET (R190): the supply falls below 2.70 V. -/
def execSupplyDipReset (s : State) : Outcome :=
  .next (s.beginHardReset true)

/-- RESETN_LOW (R190). -/
def execResetnLow (s : State) : Outcome :=
  .next (s.beginHardReset false)

/-- HARD_RESET_END (R190, R187, R185). -/
def execHardResetEnd (millivolts : Nat) (s : State) : Outcome :=
  .next (s.endHardReset millivolts)

/-- SUPPLY_BELOW_RETENTION (R190). -/
def execSupplyBelowRetention (s : State) : Outcome :=
  .next (s.loseRetention)

end Sys2Proof.Machine
end

