-- ==== Sys2Proof/Machine/SampleCommands.lean ====
section
/-! DEFINITION. The meanings of the commands of one family: the node frames and the events on the paths of light, current and the lens test (chapters Node Admission, Light
Channels, Current Confirmation, Sections, Lens Test). -/

namespace Sys2Proof.Machine

/-- LIGHT_SAMPLE (R27 to R36, R39, R45). -/
def execLightSample (source seq : Byte) (payload : List Byte) (s : State) : Outcome :=
  .next (s.outsideReset fun s => s.nodeFrame .light source seq payload)

/-- CURRENT_SAMPLE (R27 to R35, R37, R39, R70). -/
def execCurrentSample (source seq : Byte) (payload : List Byte) (s : State) : Outcome :=
  .next (s.outsideReset fun s => s.nodeFrame .current source seq payload)

/-- POSITION (R27 to R35, R38, R39, R106). -/
def execPosition (source seq : Byte) (payload : List Byte) (s : State) : Outcome :=
  .next (s.outsideReset fun s => s.nodeFrame .breaker source seq payload)

/-- STALE_TIMER_EXPIRY (R32, R40). -/
def execStaleTimerExpiry (node : Nat) (s : State) : Outcome :=
  .next (s.outsideReset fun s => s.staleExpiry node)

/-- FLICKER_WINDOW_CLOSE (R56, R58). -/
def execFlickerWindowClose (channel : FrameEvent) (s : State) : Outcome :=
  .next (s.outsideReset fun s => s.flickerWindowClose channel)

/-- STRETCH_EXPIRY (R70, R72 to R75). -/
def execStretchExpiry (point : FrameEvent) (s : State) : Outcome :=
  .next (s.outsideReset fun s => s.stretchExpiry point)

/-- PERSISTENCE_TIMER_EXPIRY (R94). -/
def execPersistenceTimerExpiry (sect : Nat) (s : State) : Outcome :=
  .next (s.outsideReset fun s => s.persistenceExpiry sect)

/-- START_WAIT_TIMER_EXPIRY (R139, R142). -/
def execStartWaitTimerExpiry (s : State) : Outcome :=
  .next (s.outsideReset fun s => s.startWaitExpiry)

/-- TEST_WINDOW_COMPLETE (R138, R141, R142). -/
def execTestWindowComplete (s : State) : Outcome :=
  .next (s.outsideReset fun s => s.testWindowComplete)

end Sys2Proof.Machine
end

