-- ==== Sys2Proof/Machine/TripCommands.lean ====
section
/-! DEFINITION. The meanings of the commands of one family: the timers of the orders and of the trip lines (chapter Trip Orders and Breaker Failure). -/

namespace Sys2Proof.Machine

/-- RESEND_TIMER_EXPIRY (R115, R114). -/
def execResendTimerExpiry (breaker : Nat) (s : State) : Outcome :=
  .next (s.outsideReset fun s => s.resendExpiry breaker)

/-- FAILURE_TIMER_EXPIRY (R119, R120). -/
def execFailureTimerExpiry (breaker : Nat) (s : State) : Outcome :=
  .next (s.outsideReset fun s => s.failureExpiry breaker)

/-- MINIMUM_PULSE_TIMER_EXPIRY (R124). -/
def execMinimumPulseTimerExpiry (line : Nat) (s : State) : Outcome :=
  .next (s.outsideReset fun s => s.pulseExpiry line)

end Sys2Proof.Machine
end

