-- ==== Sys2Proof/Machine/Dispatch.lean ====
section
/-! DEFINITION. The meaning of every command: one arm for each row of spec/opcode_table.json, in the table's order. -/

namespace Sys2Proof.Machine

def exec (i : Instr) (s : State) : Host.Outcome State Fault Refusal :=
  match i with
  | .frameArrival bytes => Sys2Proof.Machine.execFrameArrival bytes s
  | .supervision => Sys2Proof.Machine.execSupervision s
  | .beacon => Sys2Proof.Machine.execBeacon s
  | .claim seq payload => Sys2Proof.Machine.execClaim seq payload s
  | .claimTimerExpiry => Sys2Proof.Machine.execClaimTimerExpiry s
  | .supervisionSendTimerExpiry => Sys2Proof.Machine.execSupervisionSendTimerExpiry s
  | .supervisionTimerExpiry => Sys2Proof.Machine.execSupervisionTimerExpiry s
  | .beaconTimerExpiry => Sys2Proof.Machine.execBeaconTimerExpiry s
  | .sendingComplete => Sys2Proof.Machine.execSendingComplete s
  | .claimQueuedAtRoom => Sys2Proof.Machine.execClaimQueuedAtRoom s
  | .heldTestFrameQueued => Sys2Proof.Machine.execHeldTestFrameQueued s
  | .heldResponseQueued => Sys2Proof.Machine.execHeldResponseQueued s
  | .lightSample source seq payload => Sys2Proof.Machine.execLightSample source seq payload s
  | .currentSample source seq payload => Sys2Proof.Machine.execCurrentSample source seq payload s
  | .position source seq payload => Sys2Proof.Machine.execPosition source seq payload s
  | .staleTimerExpiry node => Sys2Proof.Machine.execStaleTimerExpiry node s
  | .flickerWindowClose channel => Sys2Proof.Machine.execFlickerWindowClose channel s
  | .stretchExpiry point => Sys2Proof.Machine.execStretchExpiry point s
  | .persistenceTimerExpiry sect => Sys2Proof.Machine.execPersistenceTimerExpiry sect s
  | .resendTimerExpiry breaker => Sys2Proof.Machine.execResendTimerExpiry breaker s
  | .failureTimerExpiry breaker => Sys2Proof.Machine.execFailureTimerExpiry breaker s
  | .minimumPulseTimerExpiry line => Sys2Proof.Machine.execMinimumPulseTimerExpiry line s
  | .startWaitTimerExpiry => Sys2Proof.Machine.execStartWaitTimerExpiry s
  | .testWindowComplete => Sys2Proof.Machine.execTestWindowComplete s
  | .readStatus source tag params => Sys2Proof.Machine.execReadStatus source tag params s
  | .readEvents source tag params => Sys2Proof.Machine.execReadEvents source tag params s
  | .readChannel source tag params => Sys2Proof.Machine.execReadChannel source tag params s
  | .readOrders source tag params => Sys2Proof.Machine.execReadOrders source tag params s
  | .readTable source tag params => Sys2Proof.Machine.execReadTable source tag params s
  | .writeShadow source tag params => Sys2Proof.Machine.execWriteShadow source tag params s
  | .discardShadow source tag params => Sys2Proof.Machine.execDiscardShadow source tag params s
  | .activate source tag params => Sys2Proof.Machine.execActivate source tag params s
  | .validationComplete => Sys2Proof.Machine.execValidationComplete s
  | .storeWriteComplete agrees => Sys2Proof.Machine.execStoreWriteComplete agrees s
  | .release source tag params => Sys2Proof.Machine.execRelease source tag params s
  | .setMaintenance source tag params => Sys2Proof.Machine.execSetMaintenance source tag params s
  | .setBlockOn source tag sect => Sys2Proof.Machine.execSetBlockOn source tag sect s
  | .setBlockOff source tag sect => Sys2Proof.Machine.execSetBlockOff source tag sect s
  | .testLens source tag params => Sys2Proof.Machine.execTestLens source tag params s
  | .reclaim source tag params => Sys2Proof.Machine.execReclaim source tag params s
  | .softReset source tag params => Sys2Proof.Machine.execSoftReset source tag params s
  | .unknownRequestCode source tag code params => Sys2Proof.Machine.execUnknownRequestCode source tag code params s
  | .softResetTakesEffect => Sys2Proof.Machine.execSoftResetTakesEffect s
  | .supplyWarningFall => Sys2Proof.Machine.execSupplyWarningFall s
  | .supplyWarningRise => Sys2Proof.Machine.execSupplyWarningRise s
  | .supplyDipReset => Sys2Proof.Machine.execSupplyDipReset s
  | .resetnLow => Sys2Proof.Machine.execResetnLow s
  | .hardResetEnd millivolts => Sys2Proof.Machine.execHardResetEnd millivolts s
  | .supplyBelowRetention => Sys2Proof.Machine.execSupplyBelowRetention s

end Sys2Proof.Machine
end

