-- ==== Sys2Proof/Machine/Step.lean ====
section
/-! DEFINITION. One step: the command at the front of the queue, or the passing of device time. -/

namespace Sys2Proof.Machine

/-- One step of the part. The command at the front of the queue acts on the state with the queue's rest. With no command waiting,
the Timebase runs: a timer that is due expires, and otherwise one device time unit passes (log entry 2). -/
def step (s : State) : Host.Outcome State Fault Refusal :=
  match s.pending with
  | c :: rest => exec c { s with pending := rest }
  | [] =>
    match s.dueExpiry with
    | some c => exec c s
    | none => .next s.tick

/-- The command that a word spells, put at the front of the queue; no word spells one. -/
def State.withFetchWord (s : State) (nbits w : Nat) : State :=
  match decodeTableWord nbits w with
  | some c => { s with pending := c :: s.pending }
  | none => s

end Sys2Proof.Machine
end

