-- ==== Sys2Proof/Safety.lean ====
section
/-! DEFINITION. The conditions that several statements share; what a send attempt and the end of a lens test leave; and what counts
as a consistent state of the part: the invariants that the manual states or implies, each for one kind of state. Each invariant
is meant to hold in `State.reset` and to be kept by every step. -/

namespace Sys2Proof.Safety
open Sys2Proof.Machine

/-! ## When commands act -/

/-- The part is outside a hard reset (R190): commands act. -/
abbrev Up (s : State) : Prop := s.hardReset = none

/-- The Management Agent takes a request from this source (R167): the part is outside a hard reset, the frame is not one of the
part's own, no response is held and no soft reset is pending. -/
abbrev Takes (s : State) (source : Byte) : Prop :=
  Up s ∧ source ≠ 0 ∧ s.agent.held = [] ∧ s.agent.softResetPending = false

/-- A frame is being sent at LOOP_TX (R23). -/
abbrev Busy (s : State) : Prop := s.loop.sending ≠ none

/-- The command of a node frame of a kind (R4). -/
def nodeCommand : NodeKind → Byte → Byte → List Byte → Instr
  | .light => .lightSample
  | .current => .currentSample
  | .breaker => .position

/-! ## What an attempt to send and the end of a lens test leave -/

/-- A send is attempted in `s` for an unopened order on breaker `b` (R114): when the breaker names a node and is not cut, no copy
waits and the TRIP queue has room, one TRIP frame with the order's depth and its age in milliseconds (R113) is queued while a
frame is being sent, and starts at once at an idle output (R23); otherwise nothing happens. `loop` is the Loop Port after the
attempt, and `copy` is the order's waiting copy then. -/
def SendAttempted (s : State) (b depth age : Nat) (waiting : Bool) (loop : LoopPort) (copy : Bool) : Prop :=
  (∀ n, (s.tables.breaker b).nodeOf = some n → s.isCut b = false → waiting = false → s.loop.tripQ.length < 16 →
    let f : TripFrame := ⟨b, (s.tables.node n).address, (s.tables.breaker b).number, depth, age⟩
    (Busy s → loop = { s.loop with tripQ := s.loop.tripQ ++ [f] } ∧ copy = true) ∧
    (s.loop.sending = none → s.loop.tripQ = [] →
      loop = { s.loop with sending := some ⟨.trip f, s.loop.outSeq⟩, outSeq := s.loop.outSeq + 1 } ∧ copy = false)) ∧
  (((s.tables.breaker b).nodeOf = none ∨ s.isCut b = true ∨ waiting = true ∨ 16 ≤ s.loop.tripQ.length) →
    loop = s.loop ∧ copy = waiting)

/-- The order on breaker `b` becomes held between `s` and `t` (R124): an inactive line of the breaker becomes active and its
minimum-pulse timer starts with 100 ms; an active one, its timer with it, and every other line stay as they are. -/
def LineDriven (s t : State) (b : Nat) : Prop :=
  ∀ l, l < 4 →
    (s.lineOf b = some l → (s.line l).active = false → t.line l = ⟨true, .running 1000⟩) ∧
    ((s.lineOf b ≠ some l ∨ (s.line l).active = true) → t.line l = s.line l)

/-- A lens test of channel `c` that began in `s`, or went on in it, has ended in `t` with a result, its node LIVE (R142): the engine
is IDLE and keeps peak and window count; one LENS_RESULT record is made, the first of the ending (R146, R194); and, with a
frame being sent, a held TEST(on) is removed, or a TEST(off) is queued, or held behind what waits (R136). -/
def TestEnds (s t : State) (c peak count gain : Nat) (result : LensResult) : Prop :=
  let e := s.tables.channel c
  let off : TestFrame := ⟨(s.tables.node e.node.toNat).address, e.number, false⟩
  let code := match result with
    | .done => 1 | .dirty => 2 | .blocked => 3 | .noResponse => 4 | .abortedLight => 5
  let outcome : RecordBody :=
    { kind := .lensResult, category := if result = .done ∨ result = .abortedLight then .notice else .alarm,
      channel := some c, node := some e.node.toNat, sect := e.sectOf,
      value := some (BitVec.ofNat 32 (code * 2 ^ 24 + peak * 2 ^ 12 + gain)) }
  t.lens.state = .idle ∧ t.lens.channel = none ∧ t.lens.startWait = .stopped ∧ t.lens.peak = peak ∧ t.lens.count = count ∧
  (∃ later : List RecordBody,
    t.pool = later.foldl (fun p b => p.take s.deviceTime b) (s.pool.take s.deviceTime outcome) ∧
      ∀ b ∈ later, b.kind ≠ .lensResult) ∧
  (Busy s →
    ((∃ f ∈ s.lens.held, f.on = true) →
      t.loop.controlQ = s.loop.controlQ ∧ t.lens.held = s.lens.held.filter fun f => !f.on) ∧
    ((∀ f ∈ s.lens.held, f.on = false) →
      (s.lens.held = [] → s.loop.controlQ.length < 4 →
        t.loop.controlQ = s.loop.controlQ ++ [.test off] ∧ t.lens.held = []) ∧
      ((s.lens.held ≠ [] ∨ 4 ≤ s.loop.controlQ.length) →
        t.loop.controlQ = s.loop.controlQ ∧ t.lens.held = s.lens.held ++ [off])))

/-! ## Event Pool and queues -/

/-- The slot numbers of the TRIP chain, of the GENERAL chain and of the free list. -/
def slotNumbers (p : EventPool) : List Nat :=
  p.tripChain.map Slot.number ++ p.generalChain.map Slot.number ++ p.free

/-- Each of the 64 slots stands in exactly one of the TRIP chain, the GENERAL chain and the free list, once (R180). -/
def PoolPartitioned (s : State) : Prop := (slotNumbers s.pool).Perm (List.range Config.slotCount)

/-- Each transmit queue is within its capacity (R22), and an idle output has nothing queued (R23). -/
def QueuesBounded (s : State) : Prop :=
  s.loop.tripQ.length ≤ Config.tripCapacity ∧ s.loop.controlQ.length ≤ Config.controlCapacity ∧
    s.loop.routineQ.length ≤ Config.routineCapacity ∧
    (s.loop.sending = none → s.loop.tripQ = [] ∧ s.loop.controlQ = [] ∧ s.loop.routineQ = [])

/-! ## Table sets -/

/-- Every in-use entry of a set passes the checks of R157. -/
def Validated (t : Tables) : Prop := t.validate = none

/-- Both sets that can be in force, the active set and the stored image, are validated (R156, R187). -/
def TablesValidated (s : State) : Prop := Validated s.agent.active ∧ Validated s.store.image

/-! ## Channels -/

/-- A channel's quantities are within their bounds (R47). -/
def ChannelBounded (r : ChannelRec) : Prop :=
  r.integ ≤ 65535 ∧ (∀ c, r.comp = some c → c ≤ 4095) ∧ 256 ≤ r.gain ∧ r.gain ≤ 1023

/-- Every channel's integrator, compensated level and live gain are within their bounds (R47). -/
def LightBounded (s : State) : Prop := ∀ i r, s.channel i = some r → ChannelBounded r

/-! ## Records, entries and the view -/

/-- Node, channel, point and breaker records exist for the in-use entries of the active set and for no other (R43, R68,
R105). -/
def RecordsMatchTables (s : State) : Prop :=
  (∀ i, (s.node i).isSome = s.tables.nodeUsed i) ∧ (∀ i, (s.channel i).isSome = s.tables.channelUsed i) ∧
    (∀ i, (s.point i).isSome = s.tables.pointUsed i) ∧ ∀ i, (s.position i).isSome = s.tables.breakerUsed i

/-- The Section Evaluator's view holds of every channel and point what its record holds: every change of it has been
reported (R51, R75, R80). -/
def ViewCurrent (s : State) : Prop :=
  (∀ i, s.channelView i = (s.channel i).map ChannelRec.view) ∧
    ∀ i, s.pointView i = (s.point i).map PointRec.view

/-! ## Sections -/

/-- Only a LIT channel is eligible, in every channel record and in the view (R59). -/
def EligibleIsLit (s : State) : Prop :=
  (∀ i r, s.channel i = some r → r.eligible = true → r.light = .lit) ∧
    ∀ i v, s.channelView i = some v → v.eligible = true → v.light = .lit

/-- A section is INACTIVE exactly when R87 says so. -/
def InactiveAsTabled (s : State) : Prop :=
  ∀ i, i < Config.sectionCount → ((s.sectionRec i).state = .inactive ↔ s.sectionInactive i = true)

/-- No trip is owed: a section that is ARMED or LIGHT has a false trip condition, and it is LIGHT exactly when some contributing
channel is LIT (R88, R93). -/
def DecisionsCurrent (s : State) : Prop :=
  ∀ i, i < Config.sectionCount →
    ((s.sectionRec i).state = .armed → s.tripCondition i = false ∧ s.someLit i = false) ∧
    ((s.sectionRec i).state = .light → s.tripCondition i = false ∧ s.someLit i = true)

/-! ## Orders, trip lines and the TRIP queue -/

/-- While a validation runs undisturbed there is no order, no section is LIGHT or TRIPPED and no lens test is in flight (R158,
R159). -/
abbrev QuietWhileUndisturbed (s : State) : Prop :=
  s.agent.state = .validating → s.agent.disturbed = false → s.quiet = true

/-- At most one order stands on each breaker, and an order's breaker is one of the 24 (R108). -/
abbrev OneOrderPerBreaker (s : State) : Prop :=
  (s.trip.orders.map Order.breaker).Nodup ∧ ∀ o ∈ s.trip.orders, o.breaker < Config.breakerCount

/-- Every order names at least one section, and every section so named is TRIPPED (R109). -/
def CausesTripped (s : State) : Prop :=
  ∀ o ∈ s.trip.orders, o.causes ≠ 0 ∧
    ∀ i, i < Config.sectionCount → o.causes.getLsbD i = true → (s.sectionRec i).state = .tripped

/-- Every order's depth is 0, 1 or 2 (R111). -/
def DepthsBounded (s : State) : Prop := ∀ o ∈ s.trip.orders, o.depth ≤ 2

/-- A trip line is active exactly while an order is held on it or its minimum-pulse timer runs (R124). -/
def LinesFollowOrders (s : State) : Prop :=
  ∀ l, l < Config.lineCount → (s.line l).active = (s.lineHeld l || (s.line l).pulse.isRunning)

/-- The TRIP queue holds at most one frame for each breaker, and one for exactly those whose order has a waiting copy (R22,
R114). -/
def WaitingCopies (s : State) : Prop :=
  (s.loop.tripQ.map TripFrame.breaker).Nodup ∧
    ∀ b, b ∈ s.loop.tripQ.map TripFrame.breaker ↔ ∃ o ∈ s.trip.orders, o.breaker = b ∧ o.waiting = true

/-- No ISSUED order stands on a breaker that is cut and has no trip line: it has failed at once (R122). -/
def CutOrdersFailed (s : State) : Prop :=
  ∀ o ∈ s.trip.orders, o.state = .issued → s.cutWithoutLine o.breaker = false

/-- No TRIP frame for a cut breaker stands in the TRIP queue (R21, R122). -/
def CutNotQueued (s : State) : Prop := ∀ f ∈ s.loop.tripQ, s.isCut f.breaker = false

/-! ## Timers -/

/-- While the loop is OPEN the break position and the cut set are those of the live states and tables as they stand, and
otherwise there are none (R7, R20, R21). -/
def CutSetCurrent (s : State) : Prop :=
  if s.loop.state = .loopOpen then
    s.loop.breakPos = some s.breakPosition ∧ s.loop.cutSet = s.cutSetAt s.breakPosition
  else s.loop.breakPos = none ∧ s.loop.cutSet = []

/-- How many claims are under way: waiting for room, queued, or started (R7, R8). -/
def claimsUnderWay (l : LoopPort) : Nat :=
  (if l.claimWaiting then 1 else 0) + l.controlQ.count .claim + (if l.outstanding.isSome then 1 else 0)

/-- Outside a hard reset one claim is under way while the loop is CLAIMING and none otherwise (R7 to R9, R16). The claim timer
runs only for a claim that has started, and the other Loop Port timers run exactly in their states (R11 to R17). -/
def LoopTimersInState (s : State) : Prop :=
  (s.hardReset = none → claimsUnderWay s.loop = if s.loop.state = .claiming then 1 else 0) ∧
    (s.hardReset = none → s.loop.claimTimer.isRunning = true → s.loop.outstanding.isSome = true) ∧
    (s.loop.supervisionTimer.isRunning = true ↔ s.loop.state = .loopClosed) ∧
    (s.loop.sendTimer.isRunning = true ↔ s.loop.state = .loopClosed) ∧
    (s.loop.beaconTimer.isRunning = true ↔ s.loop.state = .loopOpen)

/-- A section's persistence timer runs only while the section is LIGHT (R94). -/
def PersistenceInLight (s : State) : Prop :=
  ∀ i, (s.sectionRec i).persistence.isRunning = true → (s.sectionRec i).state = .light

/-- An order's failure timer runs exactly while it is ISSUED, and its resend timer exactly while it is ISSUED or FAILED (R111,
R115, R116, R121). -/
def OrderTimersInState (s : State) : Prop :=
  ∀ o ∈ s.trip.orders,
    (o.failure.isRunning = true ↔ o.state = .issued) ∧ (o.resend.isRunning = true ↔ o.state = .issued ∨ o.state = .failed)

/-- A node's stale timer runs, and its last sequence number is held, exactly while the node is LIVE (R29 to R32, R39). -/
def NodeTimersInState (s : State) : Prop :=
  ∀ n r, s.node n = some r →
    (r.timer.isRunning = true ↔ r.live = .live) ∧ (r.lastSeq.isSome = true ↔ r.live = .live)

/-! ## Lens test and management exchange -/

/-- The start wait timer runs exactly in STARTING (R139); there is a channel under test exactly while the engine is not IDLE;
and the channel under test is the one channel that is TESTING (R135, R142). -/
def OneTest (s : State) : Prop :=
  (s.lens.startWait.isRunning = true ↔ s.lens.state = .starting) ∧
    (s.lens.channel = none ↔ s.lens.state = .idle) ∧
    (∀ c, s.lens.channel = some c ↔ ∃ r, s.channel c = some r ∧ r.cond = .testing)

/-- At most two responses are held, one of them the answer to an ACTIVATE (R166), and there is a pending activation exactly while
the agent is VALIDATING (R148). -/
def ExchangeBounded (s : State) : Prop :=
  s.agent.held.length + (if s.agent.state = .validating then 1 else 0) ≤ 2 ∧
    (s.agent.activation.isSome = true ↔ s.agent.state = .validating)

end Sys2Proof.Safety
end

