-- ==== Sys2Proof/WellFormed.lean ====
section
/-! DEFINITION. Well-formed commands: those that the part's surroundings can send or that an event of the part can be. The
machine gives every command a meaning, well-formed or not. -/

namespace Sys2Proof

/-- The request codes (R193). -/
def requestCodes : List Byte :=
  [0x01, 0x02, 0x03, 0x04, 0x05, 0x10, 0x11, 0x12, 0x20, 0x21, 0x22, 0x23, 0x30, 0x31]

/-- A frame of a node: its source is not the part's address 0 (R4), and its payload fits in a frame (R1). -/
def nodeFrameOk (source : Byte) (payload : List Byte) : Bool := source ≠ 0 && payload.length ≤ Config.payloadMax

/-- A request of a node: its tag, its code and its parameters fit in a frame (R1, R193). -/
def requestOk (source : Byte) (params : List Byte) : Bool := source ≠ 0 && params.length + 2 ≤ Config.payloadMax

/-- A command is well-formed: its frame can be a good frame (R1, R192), its index is one that exists (R124, R147), its request
code is unknown where it must be (R167), and a hard reset ends above 2.70 V (R190). -/
def Instr.wellFormed : Instr → Bool
  | .frameArrival _ => true
  | .supervision => true
  | .beacon => true
  | .claim _ payload => payload.length ≤ Config.payloadMax
  | .claimTimerExpiry => true
  | .supervisionSendTimerExpiry => true
  | .supervisionTimerExpiry => true
  | .beaconTimerExpiry => true
  | .sendingComplete => true
  | .claimQueuedAtRoom => true
  | .heldTestFrameQueued => true
  | .heldResponseQueued => true
  | .lightSample source _ payload => nodeFrameOk source payload
  | .currentSample source _ payload => nodeFrameOk source payload
  | .position source _ payload => nodeFrameOk source payload
  | .staleTimerExpiry node => node < Config.nodeCount
  | .flickerWindowClose channel => channel.index < Config.channelCount && nodeFrameOk channel.source channel.payload
  | .stretchExpiry point => point.index < Config.pointCount && nodeFrameOk point.source point.payload
  | .persistenceTimerExpiry sect => sect < Config.sectionCount
  | .resendTimerExpiry breaker => breaker < Config.breakerCount
  | .failureTimerExpiry breaker => breaker < Config.breakerCount
  | .minimumPulseTimerExpiry line => line < Config.lineCount
  | .startWaitTimerExpiry => true
  | .testWindowComplete => true
  | .readStatus source _ params => requestOk source params
  | .readEvents source _ params => requestOk source params
  | .readChannel source _ params => requestOk source params
  | .readOrders source _ params => requestOk source params
  | .readTable source _ params => requestOk source params
  | .writeShadow source _ params => requestOk source params
  | .discardShadow source _ params => requestOk source params
  | .activate source _ params => requestOk source params
  | .validationComplete => true
  | .storeWriteComplete _ => true
  | .release source _ params => requestOk source params
  | .setMaintenance source _ params => requestOk source params
  | .setBlockOn source _ _ => source ≠ 0
  | .setBlockOff source _ _ => source ≠ 0
  | .testLens source _ params => requestOk source params
  | .reclaim source _ params => requestOk source params
  | .softReset source _ params => requestOk source params
  | .unknownRequestCode source _ code params => requestOk source params && !requestCodes.contains code
  | .softResetTakesEffect => true
  | .supplyWarningFall => true
  | .supplyWarningRise => true
  | .supplyDipReset => true
  | .resetnLow => true
  | .hardResetEnd millivolts => Config.dipResetMv < millivolts
  | .supplyBelowRetention => true

end Sys2Proof
end

