-- ==== Sys2Proof/Certificates/Slice0/Obligations.lean ====
section
/-! DEFINITION. The statements about the part, each the manual's unless its docstring says that it is the model's choice. -/

section
open Sys2Proof Sys2Proof.Machine Sys2Proof.Safety

/-! ## The queue of commands and the passing of time -/

/-- The model's choice (log entry 2): a step takes the command at the front of the queue and runs it with the queue's rest. Every
command answers a next state, and it leaves the queue that it is run with as it stands. -/
def Obligations.stepTakesFrontCommand : Prop :=
  (∀ (c : Instr) (rest : List Instr) (s : State), s.pending = c :: rest → step s = exec c { s with pending := rest }) ∧
  ∀ (c : Instr) (s : State), ∃ t, exec c s = .next t ∧ t.pending = s.pending

/-- R190: every timer of the part runs from device time. The model's choice (log entry 2): with no command waiting a timer that is due
expires, by the command of its own expiry, and with none due device time advances by one unit, wrapping, every timer has one unit less to run, every order ages by one unit
(R109) and no block acts. -/
def Obligations.idleStepRunsTime : Prop :=
  ∀ s : State, s.pending = [] → Up s →
    let ticked : Timer → Timer := fun
      | .running (n + 1) => .running n
      | .running 0 => .running 0
      | .stopped => .stopped
    let due : Instr → Prop := fun
      | .claimTimerExpiry => s.loop.claimTimer = .running 0
      | .supervisionTimerExpiry => s.loop.supervisionTimer = .running 0
      | .supervisionSendTimerExpiry => s.loop.sendTimer = .running 0
      | .beaconTimerExpiry => s.loop.beaconTimer = .running 0
      | .staleTimerExpiry n => ∃ r, s.node n = some r ∧ r.live = .live ∧ r.timer = .running 0
      | .persistenceTimerExpiry i => i < 16 ∧ (s.sectionRec i).persistence = .running 0
      | .failureTimerExpiry b => ∃ o ∈ s.trip.orders, o.breaker = b ∧ o.state = .issued ∧ o.failure = .running 0
      | .resendTimerExpiry b => ∃ o ∈ s.trip.orders, o.breaker = b ∧ o.resend = .running 0
      | .minimumPulseTimerExpiry l => l < 4 ∧ (s.line l).pulse = .running 0
      | .startWaitTimerExpiry => s.lens.startWait = .running 0
      | _ => False
    (∀ c, s.dueExpiry = some c → due c ∧ step s = exec c s) ∧
    (s.dueExpiry = none ↔
      s.loop.claimTimer ≠ .running 0 ∧ s.loop.supervisionTimer ≠ .running 0 ∧ s.loop.sendTimer ≠ .running 0 ∧
      s.loop.beaconTimer ≠ .running 0 ∧ (∀ n r, s.node n = some r → r.live = .live → r.timer ≠ .running 0) ∧
      (∀ i, i < 16 → (s.sectionRec i).persistence ≠ .running 0) ∧
      (∀ o ∈ s.trip.orders, (o.state = .issued → o.failure ≠ .running 0) ∧ o.resend ≠ .running 0) ∧
      (∀ l, l < 4 → (s.line l).pulse ≠ .running 0) ∧ s.lens.startWait ≠ .running 0) ∧
    (s.dueExpiry = none → ∃ t, step s = .next t ∧ t.deviceTime = s.deviceTime + 1 ∧
      t.loop = { s.loop with
        claimTimer := ticked s.loop.claimTimer, supervisionTimer := ticked s.loop.supervisionTimer
        sendTimer := ticked s.loop.sendTimer, beaconTimer := ticked s.loop.beaconTimer } ∧
      (∀ n, t.node n = (s.node n).map fun r => { r with timer := ticked r.timer }) ∧
      (∀ i, t.sectionRec i = { s.sectionRec i with persistence := ticked (s.sectionRec i).persistence }) ∧
      t.trip.orders = s.trip.orders.map (fun o => { o with
        age := min 655350 (o.age + 1), failure := ticked o.failure, resend := ticked o.resend }) ∧
      (∀ l, t.line l = ⟨(s.line l).active, ticked (s.line l).pulse⟩) ∧
      t.lens = { s.lens with startWait := ticked s.lens.startWait } ∧
      t.channels = s.channels ∧ t.points = s.points ∧ t.trip.positions = s.trip.positions ∧
      t.sections.channelViews = s.sections.channelViews ∧ t.sections.pointViews = s.sections.pointViews ∧ t.pool = s.pool ∧
      t.agent = s.agent ∧ t.store = s.store ∧ t.supply = s.supply ∧ t.draws = s.draws ∧ Up t ∧ t.pending = [])

/-! ## Frames at LOOP_RX -/

/-- R1 and R2: a frame that fails its length check or its CRC has no effect. -/
def Obligations.badFramesHaveNoEffect : Prop :=
  (∀ (bytes : List Byte) (s : State),
    (bytes.length < 7 ∨ 200 < (bytes.getD 4 0).toNat ∨ bytes.length ≠ 7 + (bytes.getD 4 0).toNat) →
      exec (.frameArrival bytes) s = .next s) ∧
  ∀ (f : Frame) (hi lo : Byte) (s : State), f.payload.length ≤ 200 → [hi, lo] ≠ wordBytes (crc16 f.body) →
    exec (.frameArrival (f.body ++ [hi, lo])) s = .next s

/-- R192: a frame is its header, destination, source, kind, sequence number and payload length, then its payload, then the CRC of
these bytes, high byte first: each byte fed most significant bit first into a register preset to FFFFh, with the polynomial 1021h.
The bytes of a frame carry the frame back, and bytes that are a good frame are that frame's bytes. R5, R113, R136 and R193:
the frame that leaves at LOOP_TX for each kind of sending, with source 0 and the sequence number that it took. -/
def Obligations.framesRoundTrip : Prop :=
  (let shift (register : Word16) (bit : Bool) : Word16 :=
    if register.getLsbD 15 = bit then register <<< 1 else (register <<< 1) ^^^ 0x1021
  let crc (bytes : List Byte) : Word16 := (bytes.flatMap fun b =>
    [b.getLsbD 7, b.getLsbD 6, b.getLsbD 5, b.getLsbD 4, b.getLsbD 3, b.getLsbD 2, b.getLsbD 1, b.getLsbD 0]).foldl shift 0xFFFF
  crc [0x31, 0x32, 0x33, 0x34, 0x35, 0x36, 0x37, 0x38, 0x39] = 0x29B1 ∧
  ∀ f : Frame,
    let covered := f.dest :: f.source :: f.kind :: f.seq :: BitVec.ofNat 8 f.payload.length :: f.payload
    f.bytes = covered ++ [(crc covered).extractLsb' 8 8, (crc covered).extractLsb' 0 8]) ∧
  (∀ f : Frame, f.payload.length ≤ 200 → frameOf f.bytes = some f ∧ f.bytes.length = 7 + f.payload.length) ∧
  (∀ (bytes : List Byte) (f : Frame), frameOf bytes = some f → f.bytes = bytes ∧ f.payload.length ≤ 200) ∧
  ∀ seq : Byte,
    let leaves (x : TxFrame) (dest kind : Byte) (payload : List Byte) : Prop :=
      (⟨x, seq⟩ : Sending).toFrame = { dest := dest, source := 0, kind := kind, seq := seq, payload := payload }
    (∀ f : TripFrame, f.depth ≤ 2 → f.age ≤ 65535 → ∃ depth high low : Byte,
      leaves (.trip f) f.dest 0x20 [f.number, depth, high, low] ∧ depth.toNat = f.depth ∧
        256 * high.toNat + low.toNat = f.age) ∧
    (∀ f : TestFrame, leaves (.control (.test f)) f.dest 0x21 [f.number, if f.on then 1 else 0]) ∧
    leaves (.control .supervision) 0 0x30 [] ∧ leaves (.control .beacon) 0 0x31 [] ∧ leaves (.control .claim) 0 0x32 [0] ∧
    ∀ r : Response, leaves (.response r) r.dest 0x41 (r.tag :: r.code :: (match r.result with
      | .ok => 0x00 | .busy => 0x01 | .badRequest => 0x02 | .badIndex => 0x03 | .unconfigured => 0x04 | .refusedState => 0x05
      | .refusedSole => 0x06 | .invalidTables => 0x07 | .storeBusy => 0x08) :: r.data)

/-- R3, R4, R167 and R193: a good frame is handled by its source, its destination and its kind; a MGMT_REQUEST frame is its request's
row, by its code, and one too short for a tag and a code has no effect. That FRAME_ARRIVAL with a good frame has exactly the effect
of its row's own command is the model's choice (log entry 4). -/
def Obligations.goodFramesAreSorted : Prop :=
  (∀ (f : Frame) (s : State), f.payload.length ≤ 200 →
    (f.source = 0 →
      (f.kind = 0x30 → exec (.frameArrival f.bytes) s = exec .supervision s) ∧
      (f.kind = 0x31 → exec (.frameArrival f.bytes) s = exec .beacon s) ∧
      (f.kind = 0x32 → exec (.frameArrival f.bytes) s = exec (.claim f.seq f.payload) s) ∧
      (f.kind ∉ [0x30, 0x31, 0x32] → exec (.frameArrival f.bytes) s = .next s)) ∧
    (f.source ≠ 0 → f.dest ≠ 0 → exec (.frameArrival f.bytes) s = .next s) ∧
    (f.source ≠ 0 → f.dest = 0 →
      (f.kind = 0x10 → exec (.frameArrival f.bytes) s = exec (.lightSample f.source f.seq f.payload) s) ∧
      (f.kind = 0x11 → exec (.frameArrival f.bytes) s = exec (.currentSample f.source f.seq f.payload) s) ∧
      (f.kind = 0x12 → exec (.frameArrival f.bytes) s = exec (.position f.source f.seq f.payload) s) ∧
      (f.kind ∉ [0x10, 0x11, 0x12, 0x40] → exec (.frameArrival f.bytes) s = .next s))) ∧
  ∀ (f : Frame) (s : State), f.payload.length ≤ 200 → f.source ≠ 0 → f.dest = 0 → f.kind = 0x40 →
    (f.payload.length < 2 → exec (.frameArrival f.bytes) s = .next s) ∧
    ∀ tag code params, f.payload = tag :: code :: params →
      (code = 0x01 → exec (.frameArrival f.bytes) s = exec (.readStatus f.source tag params) s) ∧
      (code = 0x02 → exec (.frameArrival f.bytes) s = exec (.readEvents f.source tag params) s) ∧
      (code = 0x03 → exec (.frameArrival f.bytes) s = exec (.readChannel f.source tag params) s) ∧
      (code = 0x04 → exec (.frameArrival f.bytes) s = exec (.readOrders f.source tag params) s) ∧
      (code = 0x05 → exec (.frameArrival f.bytes) s = exec (.readTable f.source tag params) s) ∧
      (code = 0x10 → exec (.frameArrival f.bytes) s = exec (.writeShadow f.source tag params) s) ∧
      (code = 0x11 → exec (.frameArrival f.bytes) s = exec (.discardShadow f.source tag params) s) ∧
      (code = 0x12 → exec (.frameArrival f.bytes) s = exec (.activate f.source tag params) s) ∧
      (code = 0x20 → exec (.frameArrival f.bytes) s = exec (.release f.source tag params) s) ∧
      (code = 0x21 → exec (.frameArrival f.bytes) s = exec (.setMaintenance f.source tag params) s) ∧
      (∀ sect, code = 0x22 → params = [sect, 1] →
        exec (.frameArrival f.bytes) s = exec (.setBlockOn f.source tag sect) s) ∧
      (∀ sect, code = 0x22 → params = [sect, 0] →
        exec (.frameArrival f.bytes) s = exec (.setBlockOff f.source tag sect) s) ∧
      (code = 0x23 → exec (.frameArrival f.bytes) s = exec (.testLens f.source tag params) s) ∧
      (code = 0x30 → exec (.frameArrival f.bytes) s = exec (.reclaim f.source tag params) s) ∧
      (code = 0x31 → exec (.frameArrival f.bytes) s = exec (.softReset f.source tag params) s) ∧
      (code ∉ requestCodes → exec (.frameArrival f.bytes) s = exec (.unknownRequestCode f.source tag code params) s)

/-! ## The Loop Port -/

/-- R14, R17, R18, R22, R24 and R136: what a returning SUPERVISION or BEACON frame and a RECLAIM do in each loop state. That the frames
that wait for room are offered at the end of the event (`settleRoom`) is the model's choice (log entry 5). -/
def Obligations.returningFramesByLoopState : Prop :=
  ∀ s : State, Up s →
    (s.loop.state = .loopClosed →
      exec .supervision s = .next (s.setLoop { s.loop with supervisionTimer := .running 40 })) ∧
    (s.loop.state ≠ .loopClosed → exec .supervision s = .next s) ∧
    (s.loop.state = .loopOpen → exec .beacon s = .next s.enterClaiming.settleRoom) ∧
    (s.loop.state ≠ .loopOpen → exec .beacon s = .next s) ∧
    ∀ source tag, Takes s source →
      exec (.reclaim source tag []) s = .next (s.enterClaiming.settleRoom.respond ⟨source, tag, 0x30, .ok, []⟩)

/-- R7 and R8: the entry to CLAIMING queues one CLAIM frame, leaves it waiting without room, or starts it at once. -/
def Obligations.claimingEntry : Prop :=
  ∀ s : State,
    let tests := s.loop.controlQ.filter ControlFrame.isTest
    let entered : LoopPort := { s.loop with
      state := .claiming, result := .noResult, claimList := [], outstanding := none, breakPos := none, cutSet := [],
      sendTimer := .stopped, supervisionTimer := .stopped, beaconTimer := .stopped, claimTimer := .stopped }
    (Busy s → tests.length < 4 →
      s.enterClaiming = s.setLoop { entered with claimWaiting := false, controlQ := tests ++ [.claim] }) ∧
    (4 ≤ tests.length → s.enterClaiming = s.setLoop { entered with claimWaiting := true, controlQ := tests }) ∧
    (s.loop.sending = none → s.loop.tripQ = [] → tests = [] →
      s.enterClaiming = s.setLoop { entered with
        claimWaiting := false, controlQ := [], sending := some ⟨.control .claim, s.loop.outSeq⟩,
        outSeq := s.loop.outSeq + 1, outstanding := some s.loop.outSeq })

/-- R9, R10, R12 and R194: a returning CLAIM frame closes the loop when it is the outstanding claim's, and is discarded otherwise; the
claim result, by the configured sequence in the order of the loop positions; and the CLAIM_RESULT record. -/
def Obligations.claimReturn : Prop :=
  ((∀ seq payload (s : State),
    (∀ n addresses, payload = n :: addresses → 48 < n.toNat ∨ addresses.length ≠ n.toNat) →
      exec (.claim seq payload) s = .next s) ∧
  (∀ seq payload (s : State), (s.loop.state ≠ .claiming ∨ s.loop.outstanding ≠ some seq) →
    exec (.claim seq payload) s = .next s) ∧
  ∀ seq n addresses (s : State), Up s → s.loop.state = .claiming → s.loop.outstanding = some seq →
    n.toNat ≤ 48 → addresses.length = n.toNat →
    exec (.claim seq (n :: addresses)) s = .next ((s.setLoop { s.loop with
      state := .loopClosed, claimTimer := .stopped, claimList := addresses, result := s.compareClaim addresses,
      outstanding := none, supervisionTimer := .running 40, sendTimer := .running 10 }).record
        (claimRecord (s.compareClaim addresses)))) ∧
  (∀ result, claimRecord result = {
    kind := .claimResult
    category := (match result with
      | .mismatch _ => .alarm
      | .noResult => .notice | .matched => .notice | .unchecked => .notice)
    value := some (match result with
      | .noResult => value2 0 0
      | .matched => value2 1 0
      | .mismatch p => value2 2 p
      | .unchecked => value2 3 0) }) ∧
  ∀ (s : State) (list : List Byte),
    (s.agent.mode = .unconfigured → s.compareClaim list = .unchecked) ∧
    (s.agent.mode = .protecting →
      (s.compareClaim list = .matched ↔ list = s.configuredSequence) ∧
      ∀ p, s.compareClaim list = .mismatch p ↔
        1 ≤ p ∧ list[p - 1]? ≠ s.configuredSequence[p - 1]? ∧
          ∀ q, q < p - 1 → list[q]? = s.configuredSequence[q]?) ∧
    (Validated s.agent.active → ∃ entries : List Nat,
      (∀ i, i ∈ entries ↔ i < 48 ∧ s.tables.nodeUsed i = true) ∧
      entries.Pairwise (fun i j => (s.tables.node i).position.toNat < (s.tables.node j).position.toNat) ∧
      s.configuredSequence = entries.map fun i => (s.tables.node i).address)

/-- R13, R17 and R23: at each expiry of its timer a SUPERVISION or BEACON frame is queued, started at once at an idle output, or
skipped when the CONTROL queue is full; the timer starts again either way. -/
def Obligations.periodicFrames : Prop :=
  ∀ s : State, Up s →
    (s.loop.sendTimer.isRunning = true →
      (Busy s → s.loop.controlQ.length < 4 → exec .supervisionSendTimerExpiry s = .next (s.setLoop { s.loop with
        sendTimer := .running 10, controlQ := s.loop.controlQ ++ [.supervision] })) ∧
      (4 ≤ s.loop.controlQ.length →
        exec .supervisionSendTimerExpiry s = .next (s.setLoop { s.loop with sendTimer := .running 10 })) ∧
      (s.loop.sending = none → s.loop.tripQ = [] → s.loop.controlQ = [] →
        exec .supervisionSendTimerExpiry s = .next (s.setLoop { s.loop with
          sendTimer := .running 10, sending := some ⟨.control .supervision, s.loop.outSeq⟩,
          outSeq := s.loop.outSeq + 1 }))) ∧
    (s.loop.beaconTimer.isRunning = true →
      (Busy s → s.loop.controlQ.length < 4 → exec .beaconTimerExpiry s = .next (s.setLoop { s.loop with
        beaconTimer := .running 20, controlQ := s.loop.controlQ ++ [.beacon] })) ∧
      (4 ≤ s.loop.controlQ.length →
        exec .beaconTimerExpiry s = .next (s.setLoop { s.loop with beaconTimer := .running 20 })) ∧
      (s.loop.sending = none → s.loop.tripQ = [] → s.loop.controlQ = [] →
        exec .beaconTimerExpiry s = .next (s.setLoop { s.loop with
          beaconTimer := .running 20, sending := some ⟨.control .beacon, s.loop.outSeq⟩,
          outSeq := s.loop.outSeq + 1 })))

/-- R11, R15, R16, R20 to R22, R24, R122 and R136: the expiry of the claim timer or of the supervision timer opens the loop. The model's
choice (log entry 5): held TEST frames take the room that the withdrawn SUPERVISION frames leave at once, before the BEACON frame.
Then one BEACON frame is queued, started at once at an idle output, or skipped when the CONTROL queue is full. An ISSUED order on a breaker that enters the cut set without a trip line fails.
The break position is one more than the highest loop position of a configured node that is not LIVE, or 1; the cut breakers are
those whose node stands there or beyond. -/
def Obligations.openEntry : Prop :=
  (∀ (s : State) (command : Instr) (code : Nat), Up s → s.loop.claimWaiting = false → .claim ∉ s.loop.controlQ →
    (command = .claimTimerExpiry ∧ s.loop.claimTimer.isRunning = true ∧ code = 1 ∨
      command = .supervisionTimerExpiry ∧ s.loop.supervisionTimer.isRunning = true ∧ code = 2) →
    ∃ t, exec command s = .next t ∧ t.loop.state = .loopOpen ∧ t.loop.breakPos = some s.breakPosition ∧
      t.loop.cutSet = s.cutSetAt s.breakPosition ∧ t.loop.outstanding = none ∧ t.loop.claimTimer = .stopped ∧
      t.loop.supervisionTimer = .stopped ∧ t.loop.sendTimer = .stopped ∧ t.loop.beaconTimer = .running 20 ∧
      .supervision ∉ t.loop.controlQ ∧ t.loop.result = s.loop.result ∧ t.loop.claimList = s.loop.claimList ∧
      t.nodes = s.nodes ∧ t.channels = s.channels ∧ t.points = s.points ∧ t.sections = s.sections ∧
      t.trip.positions = s.trip.positions ∧ t.store = s.store ∧ t.supply = s.supply ∧
      (∃ made : List RecordBody, t.pool = made.foldl (fun p b => p.take s.deviceTime b) s.pool ∧
        { kind := .loopState, category := .alarm, value := some (value2 code s.breakPosition) } ∈ made ∧
        (s.trip.orders = [] → made.length = 1)) ∧
      (∀ b o, s.order b = some o → o.state = .issued → s.lineOf b = none → b ∈ t.loop.cutSet → s.isCut b = false →
        ∃ o', t.order b = some o' ∧ o'.state = .failed ∧ o'.failure = .stopped) ∧
      let stay := s.loop.controlQ.filter fun f => f ≠ .supervision
      let queued := stay ++ (s.lens.held.take (4 - stay.length)).map .test
      (Busy s → t.loop.controlQ = (if queued.length < 4 then queued ++ [.beacon] else queued) ∧
        t.lens = { s.lens with held := s.lens.held.drop (4 - stay.length) }) ∧
      (s.loop.sending = none → s.loop.tripQ = [] → s.loop.controlQ = [] → s.trip.orders = [] →
        t.loop.sending = some ⟨(match s.lens.held with
          | [] => .control .beacon
          | f :: _ => .control (.test f)), s.loop.outSeq⟩ ∧ t.loop.outSeq = s.loop.outSeq + 1)) ∧
  ∀ s : State,
    (∀ i, i < 48 → s.tables.nodeUsed i = true → s.nodeLive i = false →
      (s.tables.node i).position.toNat + 1 ≤ s.breakPosition) ∧
    (s.breakPosition = 1 ∨ ∃ i, i < 48 ∧ s.tables.nodeUsed i = true ∧ s.nodeLive i = false ∧
      s.breakPosition = (s.tables.node i).position.toNat + 1) ∧
    ∀ p b, b ∈ s.cutSetAt p ↔ b < 24 ∧ s.tables.breakerUsed b = true ∧
      ∃ n, (s.tables.breaker b).nodeOf = some n ∧ p ≤ (s.tables.node n).position.toNat

/-- R23, with R5 and R8: at the end of a sending the head of the TRIP queue starts, else of the CONTROL queue, else of the
ROUTINE queue, with the next output sequence number. Whichever starts, the end of the current claim's sending starts the claim
timer. R7, R22, R24, R136 and R168: what waits for room is then queued, a waiting CLAIM frame ahead of held TEST frames, and held
responses, each kind as far as its queue has room; with nothing queued the first of them starts at once. That the offer is made at
the end of every such event, by whatever queue the frame left, is the model's choice (log entry 5). -/
def Obligations.outputArbitration : Prop :=
  ∀ (s : State) (x : Sending), Up s → s.loop.sending = some x → s.sendingSoftReset = false →
    let timed : LoopPort := if x.frame = .control .claim ∧ s.loop.outstanding = some x.seq then
      { s.loop with claimTimer := .running 100 } else s.loop
    let started (f : TxFrame) : LoopPort := { timed with sending := some ⟨f, s.loop.outSeq⟩, outSeq := s.loop.outSeq + 1 }
    let offered (l : LoopPort) (tests : List TestFrame) (responses : List Response) : State :=
      let claimed : LoopPort := if l.claimWaiting = true ∧ l.controlQ.length < 4 then
        { l with claimWaiting := false, controlQ := l.controlQ ++ [.claim] } else l
      let room := if claimed.claimWaiting then 0 else 4 - claimed.controlQ.length
      let space := 4 - l.routineQ.length
      { s with
        loop := { claimed with
          controlQ := claimed.controlQ ++ (tests.take room).map .test
          routineQ := l.routineQ ++ responses.take space }
        lens := { s.lens with held := tests.drop room }
        agent := { s.agent with held := responses.drop space } }
    let answers (t : State) : Prop := exec .sendingComplete s = .next t
    let tests := s.lens.held
    let responses := s.agent.held
    (∀ f rest, s.loop.tripQ = f :: rest →
      answers ((offered { started (.trip f) with tripQ := rest } tests responses).clearWaiting f.breaker)) ∧
    (∀ f rest, s.loop.tripQ = [] → s.loop.controlQ = f :: rest → answers (offered { started (.control f) with
      controlQ := rest, outstanding := if f = .claim then some s.loop.outSeq else s.loop.outstanding } tests responses)) ∧
    (∀ r rest, s.loop.tripQ = [] → s.loop.controlQ = [] → s.loop.routineQ = r :: rest →
      answers (offered { started (.response r) with routineQ := rest } tests responses)) ∧
    (s.loop.tripQ = [] → s.loop.controlQ = [] → s.loop.routineQ = [] →
      (s.loop.claimWaiting = true → answers (offered { started (.control .claim) with
        claimWaiting := false, outstanding := some s.loop.outSeq } tests responses)) ∧
      (∀ f rest, s.loop.claimWaiting = false → tests = f :: rest →
        answers (offered (started (.control (.test f))) rest responses)) ∧
      (∀ r rest, s.loop.claimWaiting = false → tests = [] → responses = r :: rest →
        answers (offered (started (.response r)) [] rest)) ∧
      (s.loop.claimWaiting = false → tests = [] → responses = [] →
        answers (s.setLoop { timed with sending := none })))

/-- R7, R24, R136 and R168: the frames that wait for room are queued in their order, as many as there is room for; a built response
is queued, starts at once at an idle output, or is held when the ROUTINE queue is full. -/
def Obligations.waitingFramesTakeRoom : Prop :=
  (∀ s : State, Up s → Busy s →
    (s.loop.claimWaiting = true → s.loop.controlQ.length < 4 → exec .claimQueuedAtRoom s = .next (s.setLoop { s.loop with
      claimWaiting := false, controlQ := s.loop.controlQ ++ [.claim] })) ∧
    ((s.loop.claimWaiting = false ∨ 4 ≤ s.loop.controlQ.length) → exec .claimQueuedAtRoom s = .next s) ∧
    (s.loop.claimWaiting = true → exec .heldTestFrameQueued s = .next s) ∧
    (s.loop.claimWaiting = false → exec .heldTestFrameQueued s = .next { s with
      loop := { s.loop with
        controlQ := s.loop.controlQ ++ (s.lens.held.take (4 - s.loop.controlQ.length)).map .test }
      lens := { s.lens with held := s.lens.held.drop (4 - s.loop.controlQ.length) } }) ∧
    exec .heldResponseQueued s = .next { s with
      loop := { s.loop with routineQ := s.loop.routineQ ++ s.agent.held.take (4 - s.loop.routineQ.length) }
      agent := { s.agent with held := s.agent.held.drop (4 - s.loop.routineQ.length) } }) ∧
  ∀ (s : State) (r : Response),
    (Busy s → s.loop.routineQ.length < 4 →
      s.respond r = s.setLoop { s.loop with routineQ := s.loop.routineQ ++ [r] }) ∧
    (s.loop.sending = none → s.loop.tripQ = [] → s.loop.controlQ = [] → s.loop.routineQ = [] →
      s.respond r = s.setLoop { s.loop with
        sending := some ⟨.response r, s.loop.outSeq⟩, outSeq := s.loop.outSeq + 1 }) ∧
    (4 ≤ s.loop.routineQ.length → s.respond r = { s with agent := { s.agent with held := s.agent.held ++ [r] } })

/-! ## Node Admission -/

/-- R27, R28, R33, R36 to R38 and R192: a node frame that fails the admission test, or that repeats the last sequence number of a
LIVE node, has no effect. A frame of the kind, count and length of the one in-use entry with its source address passes the test
with the contents that its payload carries: raw levels and test-active flags, three phase magnitudes a point, or positions. -/
def Obligations.refusedNodeFramesHaveNoEffect : Prop :=
  (∀ (k : NodeKind) (source seq : Byte) (payload : List Byte) (s : State),
    ((s.agent.mode = .unconfigured ∨
        ∀ i, i < 48 → s.tables.nodeUsed i = true → (s.tables.node i).address = source →
          (s.tables.node i).kind ≠ k.code ∨ payload.head? ≠ some (s.tables.node i).count ∨
            payload.length ≠ 1 + k.bytesFor (s.tables.node i).count.toNat ∨
            (k = .breaker ∧ ∃ b ∈ payload.tail, b ∉ [1, 2, 3, 4])) →
      exec (nodeCommand k source seq payload) s = .next s) ∧
    ∀ n timer, s.entryOfSource source = some n → s.node n = some ⟨.live, some seq, timer⟩ →
      exec (nodeCommand k source seq payload) s = .next s) ∧
  ∀ (s : State) (source count : Byte) (n : Nat), s.agent.mode = .protecting → n < 48 → s.tables.nodeUsed n = true →
    (s.tables.node n).address = source → (s.tables.node n).count = count →
    (∀ j, j < 48 → s.tables.nodeUsed j = true → (s.tables.node j).address = source → j = n) →
    let number (w : Byte × Byte) : Nat := 256 * w.1.toNat + w.2.toNat
    let position (b : Byte) : Position :=
      if b = 1 then .atOpen else if b = 2 then .atClosed else if b = 3 then .moving else .fault
    (∀ words : List (Byte × Byte), (s.tables.node n).kind = 1 → words.length = count.toNat →
      s.admission .light source (count :: words.flatMap fun w => [w.1, w.2]) =
        some (n, .light (words.map fun w => (number w % 4096, 128 ≤ w.1.toNat)))) ∧
    (∀ points : List ((Byte × Byte) × (Byte × Byte) × (Byte × Byte)), (s.tables.node n).kind = 2 →
      points.length = count.toNat →
      s.admission .current source (count :: points.flatMap fun x => [x.1.1, x.1.2, x.2.1.1, x.2.1.2, x.2.2.1, x.2.2.2]) =
        some (n, .current (points.map fun x => ⟨number x.1, number x.2.1, number x.2.2⟩))) ∧
    ∀ codes : List Byte, (s.tables.node n).kind = 3 → codes.length = count.toNat → (∀ b ∈ codes, b ∈ [1, 2, 3, 4]) →
      s.admission .breaker source (count :: codes) = some (n, .positions (codes.map position))

/-- R30, R31, R34, R35, R39, R61 and R77: what an accepted frame does to its node's record; and, of an ABSENT or STALE node in any
loop state, its one NODE_LIVE record, the first of the event (R30, R40, R42), whatever channels, points and breakers name the node,
and that the node's NO_DATA channels and points leave NO_DATA before the frame's samples reach them. -/
def Obligations.acceptedFramesKeepNodeLive : Prop :=
  ∀ (k : NodeKind) (source seq : Byte) (payload : List Byte) (s : State) (n : Nat) (c : Contents) (r : NodeRec),
    Up s → source ≠ 0 → s.admission k source payload = some (n, c) → s.node n = some r →
    let command := nodeCommand k source seq payload
    let stamped : NodeRec := ⟨.live, some seq, .running (10 * (s.tables.node n).stale.toNat)⟩
    (s.channelsOfNode n = [] → s.pointsOfNode n = [] → s.breakersOfNode n = [] → s.loop.state ≠ .loopOpen →
      let heard := s.setNode n stamped
      (r.live ≠ .live → exec command s = .next (heard.record
        { kind := .nodeLive, category := if r.live = .stale then .alarm else .notice, node := some n })) ∧
      ∀ last, r.live = .live → r.lastSeq = some last →
        (1 ≤ (seq - last).toNat → (seq - last).toNat ≤ 128 → exec command s = .next heard) ∧
        (129 ≤ (seq - last).toNat → exec command s = .next (heard.record
          { kind := .nodeResync, category := .notice, node := some n, value := some (value2 0 (seq - last).toNat) }))) ∧
    (r.live ≠ .live → ∃ t, exec command s = .next t ∧ t.node n = some stamped ∧ (∀ m, m ≠ n → t.node m = s.node m) ∧
      (∃ later : List RecordBody, (∀ b ∈ later, b.kind ≠ .nodeLive) ∧
        t.pool = later.foldl (fun p b => p.take s.deviceTime b) (s.pool.take s.deviceTime
          { kind := .nodeLive, category := if r.live = .stale then .alarm else .notice, node := some n })) ∧
      (∀ i x, i ∈ s.channelsOfNode n → s.channel i = some x → x.cond = .noData →
        ∃ y, t.channel i = some y ∧ y.cond = x.standing.cond ∧ y.gain = x.gain ∧ y.standing = x.standing) ∧
      (∀ i, i ∈ s.pointsOfNode n → (s.point i).map PointRec.cond = some .noData →
        (t.point i).map PointRec.cond = some .normal) ∧
      (∀ i, i ∉ s.channelsOfNode n → t.channel i = s.channel i) ∧
      (∀ i, i ∉ s.pointsOfNode n → t.point i = s.point i) ∧
      (∀ samples k level flag i x, c = .light samples → samples[k]? = some (level, flag) → s.channelAt n k = some i →
        s.channel i = some x → x.cond = .noData → t.channel i = some (ChannelRec.process (s.tables.channel i)
          { x with raw := some level, cond := x.standing.cond } (.received level)).1) ∧
      ∀ samples k m1 m2 m3 i, c = .current samples → samples[k]? = some ⟨m1, m2, m3⟩ → s.pointAt n k = some i →
        (s.point i).map PointRec.cond = some .noData →
        let e := s.tables.point i
        let reaches (m : Nat) : Prop := e.pickup.toNat ≤ min 65535 (m * e.scale.toNat / 4096)
        (reaches m1 ∨ reaches m2 ∨ reaches m3 → t.point i = some ⟨e.stretch.toNat, .normal⟩) ∧
        (¬reaches m1 → ¬reaches m2 → ¬reaches m3 → t.point i = some ⟨0, .normal⟩))

/-- R32, R40, R60, R76, R107 and R143: a LIVE node whose stale timer expires becomes STALE with its NODE_STALE record, and its
channels, points and breakers lose their data. A lens test of one of its channels ends with NO_RESPONSE: the engine is IDLE and
keeps peak and count, one LENS_RESULT record is made, a held TEST(on) is removed and no TEST(off) is built. A test of another
node's channel goes on. That the NODE_STALE record precedes every other record of the event is the model's choice (log entry
18). -/
def Obligations.staleNodeLosesItsData : Prop :=
  ∀ (s : State) (n : Nat) (last : Option Byte) (left : Nat), Up s → s.node n = some ⟨.live, last, .running left⟩ →
    ∃ t, exec (.staleTimerExpiry n) s = .next t ∧ t.node n = some ⟨.stale, none, .stopped⟩ ∧
      (∀ m, m ≠ n → t.node m = s.node m) ∧
      (∀ c r, c ∈ s.channelsOfNode n → s.channel c = some r → t.channel c = some { r with
        raw := none, comp := none, integ := 0, light := .dark, pred := none, window := none, flicker := false,
        eligible := false, cond := .noData }) ∧
      (∀ p, p ∈ s.pointsOfNode n → (s.point p).isSome = true → t.point p = some ⟨0, .noData⟩) ∧
      (∀ b, b ∈ s.breakersOfNode n → (s.position b).isSome = true → t.position b = some .unknown) ∧
      (∀ p, p ∉ s.pointsOfNode n → t.point p = s.point p) ∧
      (∀ b, b ∉ s.breakersOfNode n → t.position b = s.position b) ∧
      t.store = s.store ∧ t.supply = s.supply ∧ t.loop.controlQ = s.loop.controlQ ∧
      let others : Prop := ∀ c, c ∉ s.channelsOfNode n → t.channel c = s.channel c
      ∃ made : List RecordBody,
        t.pool = made.foldl (fun p b => p.take s.deviceTime b) (s.pool.take s.deviceTime
          { kind := .nodeStale, category := .alarm, node := some n }) ∧
        ((s.lens.state = .idle ∨ ∃ c, s.lens.channel = some c ∧ (s.tables.channel c).node.toNat ≠ n) →
          others ∧ t.lens = s.lens ∧ ∀ b ∈ made, b.kind ≠ .lensResult) ∧
        ∀ c r, s.lens.state ≠ .idle → s.lens.channel = some c → c ∈ s.channelsOfNode n → s.channel c = some r →
          others ∧
          t.lens = { s.lens with
            state := .idle, channel := none, startWait := .stopped, held := s.lens.held.filter fun f => !f.on } ∧
          made.filter (fun b => b.kind = .lensResult) = [{
            kind := .lensResult, category := .alarm, channel := some c, node := some n, sect := (s.tables.channel c).sectOf,
            value := some (BitVec.ofNat 32 (4 * 2 ^ 24 + s.lens.peak * 2 ^ 12 + r.gain)) }]

/-! ## Light Qualifier -/

/-- R34 to R36, R39, R45, R52, R53 and R60: an accepted LIGHT_SAMPLE frame of a LIVE node delivers its samples in ascending number, each
to the in-use channel entry that names the node and the number, with the frame's gap, which is 0 after a resynchronisation. A
NORMAL or DIRTY channel processes up to four held samples, the rest of the gap missing, then the received sample. No other channel
and no point or position changes. -/
def Obligations.lightSampleAfterGap : Prop :=
  let processed (r : ChannelRec) (level gap : Nat) : List Sample :=
    let held := if r.comp = none then 0 else min gap 4
    List.replicate held Sample.held ++ List.replicate (gap - held) Sample.missing ++ [Sample.received level]
  (∀ (s : State) (source seq last : Byte) (payload : List Byte) (n : Nat) (samples : List (Nat × Bool)) (timer : Timer),
    Up s → source ≠ 0 → s.admission .light source payload = some (n, .light samples) →
    s.node n = some ⟨.live, some last, timer⟩ → seq ≠ last →
    let d := (seq - last).toNat
    let gap := if d ≤ 128 then d - 1 else 0
    let stamped := s.setNode n ⟨.live, some seq, .running (10 * (s.tables.node n).stale.toNat)⟩
    let heard := if d ≤ 128 then stamped else stamped.record
      { kind := .nodeResync, category := .notice, node := some n, value := some (value2 0 d) }
    ∃ t, exec (.lightSample source seq payload) s = .next t ∧
      t = samples.zipIdx.foldl (fun u x => match s.channelAt n x.2 with
        | some c => u.deliverLight c x.1.1 x.1.2 gap
        | none => u) heard ∧
      (∀ k level flag c r, samples[k]? = some (level, flag) → s.channelAt n k = some c → s.channel c = some r →
        (r.cond = .normal ∨ r.cond = .dirty → t.channel c = some ((processed r level gap).foldl
          (fun r x => (ChannelRec.process (s.tables.channel c) r x).1) { r with raw := some level })) ∧
        (r.cond = .noData → t.channel c = some { r with raw := some level })) ∧
      (∀ j, (∀ k, k < samples.length → s.channelAt n k ≠ some j) → t.channel j = s.channel j) ∧
      t.nodes = heard.nodes ∧ t.points = s.points ∧ t.trip.positions = s.trip.positions ∧
      ((∀ k c r, k < samples.length → s.channelAt n k = some c → s.channel c = some r → r.cond ≠ .testing) →
        t.lens = s.lens)) ∧
  (∀ (s : State) (c level gap : Nat) (flag : Bool) (r : ChannelRec), s.channel c = some r →
    r.cond = .normal ∨ r.cond = .dirty → s.deliverLight c level flag gap =
      (processed r level gap).foldl (fun u x => u.processSample c x) (s.setChannel c { r with raw := some level })) ∧
  ∀ (s : State) (n k : Nat),
    let names (c : Nat) : Prop := c < 96 ∧ s.tables.channelUsed c = true ∧ (s.tables.channel c).node.toNat = n ∧
      (s.tables.channel c).number.toNat = k
    (∀ c, s.channelAt n k = some c → names c) ∧ (s.channelAt n k = none → ∀ c, ¬names c)

/-- R46, R48, R49 and R50: the compensated level, the integrator and the light state after one processed sample. -/
def Obligations.sampleArithmetic : Prop :=
  ∀ (e : ChannelEntry) (r : ChannelRec),
    let light (a : Nat) : LightState :=
      if a = 0 then .dark else if e.qualify.toNat ≤ a then .lit else if r.light = .lit then .lit else .rising
    let step (c : Nat) : Nat :=
      if e.threshold.toNat ≤ c then min 65535 (r.integ + (c - e.threshold.toNat)) else r.integ - e.decay.toNat
    (∀ l, let c := min 4095 (l * r.gain / 256)
      (r.process e (.received l)).1.comp = some c ∧ (r.process e (.received l)).1.integ = step c ∧
        (r.process e (.received l)).1.light = light (step c)) ∧
    (∀ c, r.comp = some c →
      (r.process e .held).1.comp = some c ∧ (r.process e .held).1.integ = step c ∧
        (r.process e .held).1.light = light (step c)) ∧
    (r.process e .missing).1.comp = r.comp ∧ (r.process e .missing).1.integ = r.integ - e.decay.toNat ∧
      (r.process e .missing).1.light = light (r.integ - e.decay.toNat) ∧
    ∀ x, (r.process e x).1.gain = r.gain ∧ (r.process e x).1.raw = r.raw ∧ (r.process e x).1.cond = r.cond ∧
      (r.process e x).1.standing = r.standing

/-- R54 to R59: crossings, the flicker window, and eligibility after one processed sample; and the FLICKER_ON or FLICKER_OFF record
of the sample when it turns FLICKER on or off, and none otherwise. That the record precedes those of the sections that the
sample's report reaches is the model's choice (log entry 16). -/
def Obligations.flickerAndEligibility : Prop :=
  (∀ (e : ChannelEntry) (r : ChannelRec) (x : Sample),
    let t := (r.process e x).1
    (t.eligible = true ↔
      t.light = .lit ∧ (t.flicker = false ∨ min 65535 (2 * e.qualify.toNat) ≤ t.integ)) ∧
    (t.pred = some (match x with
      | .received l => min 4095 (l * r.gain / 256) < e.threshold.toNat
      | .held => r.comp.all fun c => c < e.threshold.toNat
      | .missing => true)) ∧
    (e.window = 0 → t.window = r.window ∧ t.flicker = r.flicker) ∧
    (e.window ≠ 0 →
      let crossing : Bool := r.pred = some true && (match x with
        | .received l => e.threshold.toNat ≤ min 4095 (l * r.gain / 256)
        | _ => false)
      (r.window = none →
        t.window = (if crossing then some ⟨1, 0⟩ else none) ∧ t.flicker = r.flicker) ∧
      ∀ w, r.window = some w →
        let n := if crossing then min e.limit.toNat (w.crossings + 1) else w.crossings
        let on : Bool := r.flicker || (crossing && (n = e.limit.toNat))
        (w.elapsed + 1 < e.window.toNat → t.window = some ⟨n, w.elapsed + 1⟩ ∧ t.flicker = on) ∧
        (e.window.toNat ≤ w.elapsed + 1 → n < e.limit.toNat → t.window = none ∧ t.flicker = false) ∧
        (e.window.toNat ≤ w.elapsed + 1 → e.limit.toNat ≤ n → t.window = some ⟨0, 0⟩ ∧ t.flicker = on))) ∧
  ∀ (s : State) (c : Nat) (r : ChannelRec) (x : Sample), s.channel c = some r →
    let e := s.tables.channel c
    let after := (r.process e x).1
    let t := s.processSample c x
    let flickered (kind : RecordKind) : RecordBody :=
      { kind := kind, category := .notice, channel := some c, sect := if e.sect = 0xFF then none else some e.sect.toNat }
    t.channel c = some after ∧ (∀ j, j ≠ c → t.channel j = s.channel j) ∧
    ∃ later : List RecordBody, (∀ b ∈ later, b.kind ≠ .flickerOn ∧ b.kind ≠ .flickerOff) ∧
      t.pool = later.foldl (fun p b => p.take s.deviceTime b)
        (if r.flicker = false ∧ after.flicker = true then s.pool.take s.deviceTime (flickered .flickerOn)
         else if r.flicker = true ∧ after.flicker = false then s.pool.take s.deviceTime (flickered .flickerOff)
         else s.pool)

/-- R52, R56, R63, R72 to R74, R94 and R140: a frame in whose handling a flicker window closes, by the samples of a NORMAL or DIRTY
channel or by the sample that aborts a TESTING channel's test, or a stretch counter runs out; that no other command changes a
stretch counter; and a persistence timer that expires. That FLICKER_WINDOW_CLOSE and STRETCH_EXPIRY carry
the frame that brings the event, and do nothing with a frame that does not, is the model's choice (log entry 3). -/
def Obligations.pathEvents : Prop :=
  ∀ s : State, Up s →
    (∀ (source seq hi lo last : Byte) (n c level : Nat) (flag : Bool) (timer : Timer) (r : ChannelRec) (w : FlickerWindow),
      source ≠ 0 → s.admission .light source [1, hi, lo] = some (n, .light [(level, flag)]) →
      s.node n = some ⟨.live, some last, timer⟩ → 1 ≤ (seq - last).toNat → (seq - last).toNat ≤ 128 →
      s.channelAt n 0 = some c → s.channel c = some r → (r.cond = .normal ∨ r.cond = .dirty) → r.window = some w →
      (s.tables.channel c).window ≠ 0 →
      let e := s.tables.channel c
      let command : Instr := .flickerWindowClose ⟨c, source, seq, [1, hi, lo]⟩
      (w.elapsed + (seq - last).toNat < e.window.toNat → exec command s = .next s) ∧
      (e.window.toNat ≤ w.elapsed + (seq - last).toNat →
        ∃ t r', exec command s = .next t ∧ exec (.lightSample source seq [1, hi, lo]) s = .next t ∧
          t.channel c = some r' ∧ (∀ j, j ≠ c → t.channel j = s.channel j) ∧ t.points = s.points ∧
          t.trip.positions = s.trip.positions ∧ t.lens = s.lens ∧
          ((seq - last).toNat = 1 →
            let crossing : Bool := r.pred = some true && e.threshold.toNat ≤ min 4095 (level * r.gain / 256)
            let counted := if crossing then min e.limit.toNat (w.crossings + 1) else w.crossings
            (counted < e.limit.toNat → r'.window = none ∧ r'.flicker = false) ∧
            (e.limit.toNat ≤ counted → r'.window = some ⟨0, 0⟩ ∧
              r'.flicker = (r.flicker || (crossing && (counted = e.limit.toNat))))))) ∧
    (∀ (source seq hi lo last : Byte) (n c level : Nat) (flag : Bool) (timer : Timer) (r : ChannelRec) (w : FlickerWindow),
      source ≠ 0 → s.admission .light source [1, hi, lo] = some (n, .light [(level, flag)]) →
      s.node n = some ⟨.live, some last, timer⟩ → 1 ≤ (seq - last).toNat → (seq - last).toNat ≤ 128 →
      s.channelAt n 0 = some c → s.channel c = some r → r.cond = .testing → s.lens.channel = some c →
      s.lens.state ≠ .idle → r.window = some w →
      let e := s.tables.channel c
      let ceiling := min 4095 (3 * e.reference.toNat)
      let command : Instr := .flickerWindowClose ⟨c, source, seq, [1, hi, lo]⟩
      ((level ≤ ceiling ∨ e.window = 0 ∨ w.elapsed + 1 < e.window.toNat) → exec command s = .next s) ∧
      (ceiling < level → e.window ≠ 0 → e.window.toNat ≤ w.elapsed + 1 →
        exec command s = exec (.lightSample source seq [1, hi, lo]) s ∧
          ∃ t r', exec command s = .next t ∧ t.channel c = some r' ∧
            r' = (ChannelRec.process e { r with raw := some level, cond := r.standing.cond } (.received level)).1 ∧
            (w.crossings + 1 < e.limit.toNat → r'.window = none ∧ r'.flicker = false))) ∧
    (∀ (source seq b1 b2 b3 b4 b5 b6 last : Byte) (n p : Nat) (x : Phases) (timer : Timer) (r : PointRec),
      source ≠ 0 → s.admission .current source [1, b1, b2, b3, b4, b5, b6] = some (n, .current [x]) →
      s.node n = some ⟨.live, some last, timer⟩ → 1 ≤ (seq - last).toNat → (seq - last).toNat ≤ 128 →
      s.pointAt n 0 = some p → s.point p = some r →
      let e := s.tables.point p
      let scale (m : Nat) : Nat := min 65535 (m * e.scale.toNat / 4096)
      let overPickup : Prop := e.pickup.toNat ≤ scale x.m1 ∨ e.pickup.toNat ≤ scale x.m2 ∨ e.pickup.toNat ≤ scale x.m3
      let payload : List Byte := [1, b1, b2, b3, b4, b5, b6]
      let command : Instr := .stretchExpiry ⟨p, source, seq, payload⟩
      (r.stretch = 0 → exec command s = .next s) ∧
      (¬overPickup → (seq - last).toNat < r.stretch → exec command s = .next s) ∧
      (¬overPickup → 0 < r.stretch → r.stretch ≤ (seq - last).toNat →
        ∃ t, exec command s = .next t ∧ exec (.currentSample source seq payload) s = .next t ∧
          t.point p = some { r with stretch := 0 } ∧ (∀ j, j ≠ p → t.point j = s.point j) ∧ t.channels = s.channels ∧
          t.trip.positions = s.trip.positions ∧ t.lens = s.lens) ∧
      (overPickup → e.stretch ≠ 0 → (seq - last).toNat ≤ r.stretch → exec command s = .next s) ∧
      (overPickup → 0 < r.stretch → r.stretch < (seq - last).toNat →
        exec command s = exec (.currentSample source seq payload) s)) ∧
    (∀ (c : Instr) (t : State), exec c s = .next t → t.points ≠ s.points →
      (∃ source seq payload, c = .lightSample source seq payload ∨ c = .currentSample source seq payload ∨
        c = .position source seq payload) ∨ (∃ bytes, c = .frameArrival bytes) ∨
      (∃ e, c = .flickerWindowClose e ∨ c = .stretchExpiry e) ∨ (∃ n, c = .staleTimerExpiry n) ∨
      c ∈ [Instr.validationComplete, .sendingComplete, .softResetTakesEffect]) ∧
    ∀ i, i < 16 → (s.sectionRec i).persistence.isRunning = true → (s.sectionRec i).persistentMade = false →
      exec (.persistenceTimerExpiry i) s = .next ((s.setSection i
        { s.sectionRec i with persistence := .stopped, persistentMade := true }).record
          { kind := .lightPersistent, category := .alarm, sect := some i, channel := s.lowestLit i })

/-! ## Current Confirmation Unit -/

/-- R34, R35, R37, R39 and R70 to R73: an accepted CURRENT_SAMPLE frame of a LIVE node delivers its samples in ascending number, each to
the in-use point entry that names the node and the number, with the frame's gap, which is 0 after a resynchronisation. A point
takes the gap from its stretch counter, then loads it when the largest scaled magnitude is at or above pickup, and takes one more
from it otherwise. -/
def Obligations.currentSampleStretch : Prop :=
  (∀ (s : State) (source seq last : Byte) (payload : List Byte) (n : Nat) (samples : List Phases) (timer : Timer),
    Up s → source ≠ 0 → s.admission .current source payload = some (n, .current samples) →
    s.node n = some ⟨.live, some last, timer⟩ → seq ≠ last →
    let d := (seq - last).toNat
    let gap := if d ≤ 128 then d - 1 else 0
    let stamped := s.setNode n ⟨.live, some seq, .running (10 * (s.tables.node n).stale.toNat)⟩
    let heard := if d ≤ 128 then stamped else stamped.record
      { kind := .nodeResync, category := .notice, node := some n, value := some (value2 0 d) }
    ∃ t, exec (.currentSample source seq payload) s = .next t ∧
      t = samples.zipIdx.foldl (fun u x => match s.pointAt n x.2 with
        | some p => u.deliverPoint p gap x.1
        | none => u) heard ∧
      (∀ k x p r, samples[k]? = some x → s.pointAt n k = some p → s.point p = some r →
        let e := s.tables.point p
        let scale (m : Nat) : Nat := min 65535 (m * e.scale.toNat / 4096)
        let overPickup : Prop := e.pickup.toNat ≤ scale x.m1 ∨ e.pickup.toNat ≤ scale x.m2 ∨ e.pickup.toNat ≤ scale x.m3
        (overPickup → t.point p = some { r with stretch := e.stretch.toNat }) ∧
        (¬overPickup → t.point p = some { r with stretch := r.stretch - gap - 1 })) ∧
      (∀ j, (∀ k, k < samples.length → s.pointAt n k ≠ some j) → t.point j = s.point j) ∧
      t.nodes = heard.nodes ∧ t.channels = s.channels ∧ t.trip.positions = s.trip.positions ∧ t.lens = s.lens) ∧
  ∀ (s : State) (n k : Nat),
    let names (p : Nat) : Prop := p < 24 ∧ s.tables.pointUsed p = true ∧ (s.tables.point p).node.toNat = n ∧
      (s.tables.point p).number.toNat = k
    (∀ p, s.pointAt n k = some p → names p) ∧ (s.pointAt n k = none → ∀ p, ¬names p)

/-! ## Trip Dispatcher -/

/-- R30, R34, R35, R38, R39, R106, R113, R114, R116 to R118, R120, R122 and R124: an accepted POSITION frame delivers its positions in
ascending number, each to the in-use breaker entry that names the node and the number: of a LIVE node, and, as its first frame, of
an ABSENT or STALE one, after its NODE_LIVE record and the reports of R40, in every loop state (validation lets no channel or
point entry name a breaker node, R157). What the delivery of a node's position code does to a breaker's record, UNKNOWN or not, and to the order on the
breaker, with the first send and the trip line of a reissued order, and the trip line of an opened one; the order of a breaker
that is cut and has no trip line fails at its reissue and escalates. -/
def Obligations.positionChanges : Prop :=
  (∀ (s : State) (source seq : Byte) (payload : List Byte) (n : Nat) (positions : List Position) (r : NodeRec),
    Up s → source ≠ 0 → s.admission .breaker source payload = some (n, .positions positions) → s.node n = some r →
    let stamped : NodeRec := ⟨.live, some seq, .running (10 * (s.tables.node n).stale.toNat)⟩
    let delivered (heard t : State) : Prop := exec (.position source seq payload) s = .next t ∧
      t = positions.zipIdx.foldl (fun u x => match s.breakerAt n x.2 with
        | some b => u.deliverPosition b x.1
        | none => u) heard ∧
      (∀ k p b, positions[k]? = some p → s.breakerAt n k = some b → (s.position b).isSome = true → t.position b = some p) ∧
      (∀ j, (∀ k, k < positions.length → s.breakerAt n k ≠ some j) → t.position j = s.position j) ∧
      t.nodes = heard.nodes ∧ t.channels = s.channels ∧ t.points = s.points ∧ t.lens = s.lens
    (∀ last, r.live = .live → r.lastSeq = some last → seq ≠ last →
      let d := (seq - last).toNat
      let heard := if d ≤ 128 then s.setNode n stamped else (s.setNode n stamped).record
        { kind := .nodeResync, category := .notice, node := some n, value := some (value2 0 d) }
      ∃ t, delivered heard t) ∧
    (r.live ≠ .live → s.channelsOfNode n = [] → s.pointsOfNode n = [] →
      let live := (s.setNode n ⟨.live, some seq, r.timer⟩).record
        { kind := .nodeLive, category := if r.live = .stale then .alarm else .notice, node := some n }
      let told := if s.loop.state = .loopOpen then ({ live with draws := s.draws + 1 } : State).recomputeCut else live
      ∃ t, delivered (told.setNode n stamped) t)) ∧
  (∀ (s : State) (n k : Nat),
    let names (b : Nat) : Prop := b < 24 ∧ s.tables.breakerUsed b = true ∧ (s.tables.breaker b).nodeOf = some n ∧
      (s.tables.breaker b).number.toNat = k
    (∀ b, s.breakerAt n k = some b → names b) ∧ (s.breakerAt n k = none → ∀ b, ¬names b)) ∧
  ∀ (s : State) (b : Nat) (old new : Position), s.position b = some old → new ≠ .unknown →
    let t := s.deliverPosition b new
    let code (p : Position) : Nat := match p with
      | .unknown => 0 | .atOpen => 1 | .atClosed => 2 | .moving => 3 | .fault => 4
    let changed := (s.setPosition b new).record
      { kind := .positionChange, category := .notice, breaker := some b, value := some (value2 (code old) (code new)) }
    (old = new → t = s) ∧
    (old ≠ new → s.order b = none → t = changed) ∧
    ∀ o, old ≠ new → s.order b = some o →
      (new ≠ .atOpen → o.state ≠ .opened → t = changed) ∧
      (new = .atOpen → o.state = .opened → t = changed) ∧
      (new = .atOpen → o.state ≠ .opened →
        t.order b = some { o with state := .opened, failure := .stopped, resend := .stopped } ∧
        t.loop = s.loop ∧ t.position b = some new ∧
        (∀ l, l < 4 →
          let free : Prop := s.lineOf b = some l ∧ (s.line l).pulse.isRunning = false ∧
            ∀ o ∈ s.trip.orders, o.breaker ≠ b → o.state = .opened ∨ s.lineOf o.breaker ≠ some l
          (free → t.line l = ⟨false, .stopped⟩) ∧ (¬free → t.line l = s.line l)) ∧
        t.pool = changed.pool.take s.deviceTime
          { kind := .orderOpened, category := .trip, sect := lowestSection o.causes, breaker := some b,
            value := some (value2 o.state.code o.depth) }) ∧
      (new ≠ .atOpen → o.state = .opened → s.cutWithoutLine b = false →
        ∃ w, t.order b = some { o with
            state := .issued
            failure := .running (10 * (s.tables.breaker b).failure.toNat)
            resend := .running 20
            waiting := w } ∧
          SendAttempted s b o.depth (min 65535 (o.age / 10)) o.waiting t.loop w ∧ LineDriven s t b ∧
          t.pool = changed.pool.take s.deviceTime
            { kind := .orderReissued, category := .trip, sect := lowestSection o.causes, breaker := some b,
              value := some (value2 (code new) o.depth) }) ∧
      (new ≠ .atOpen → o.state = .opened → s.cutWithoutLine b = true →
        let body (kind : RecordKind) (hi lo : Nat) : RecordBody :=
          { kind := kind, category := .trip, sect := lowestSection o.causes, breaker := some b, value := some (value2 hi lo) }
        let backups := (s.tables.breaker b).backupList
        let failed := ((changed.updateOrder b fun o => { o with
          state := .failed, failure := .stopped, resend := .running 20 }).record
            (body .orderReissued (code new) o.depth)).record (body .orderFailed 2 o.depth)
        t = (
          if 2 ≤ o.depth then failed.record (body .escalationExhausted 0 1)
          else if backups = [] then failed.record (body .escalationExhausted 0 2)
          else backups.foldl (fun s b' => s.ask b' o.causes (o.depth + 1)) failed))

/-- R108, R109, R111, R113, R114, R120, R122 and R124: an order asked for on a breaker that has none, how it begins, its first send and
its trip line; on a breaker that is cut and has no trip line it fails at once and escalates: an order with its causes and the next
depth is asked for on each backup, in list order. -/
def Obligations.newOrders : Prop :=
  ∀ (s : State) (b depth : Nat) (causes : SectionSet) (p : Position), s.order b = none → s.position b = some p →
    (p = .atOpen → s.ask b causes depth =
      ((s.setOrders (s.trip.orders ++
        [⟨b, .opened, causes, depth, s.deviceTime, 0, .stopped, .stopped, false⟩])).disturb).record
        { kind := .orderIssued, category := .trip, sect := lowestSection causes, breaker := some b,
          value := some (value2 depth 2) }) ∧
    (p ≠ .atOpen → s.cutWithoutLine b = false → ∃ w,
      (s.ask b causes depth).order b = some ⟨b, .issued, causes, depth, s.deviceTime, 0,
        .running (10 * (s.tables.breaker b).failure.toNat), .running 20, w⟩ ∧
      SendAttempted s b depth 0 false (s.ask b causes depth).loop w ∧
      (s.ask b causes depth).trip.orders.map Order.breaker = s.trip.orders.map Order.breaker ++ [b] ∧
      LineDriven s (s.ask b causes depth) b ∧
      (s.ask b causes depth).pool = s.pool.take s.deviceTime
        { kind := .orderIssued, category := .trip, sect := lowestSection causes, breaker := some b,
          value := some (value2 depth 1) }) ∧
    (p ≠ .atOpen → s.cutWithoutLine b = true →
      let body (kind : RecordKind) (hi lo : Nat) : RecordBody :=
        { kind := kind, category := .trip, sect := lowestSection causes, breaker := some b, value := some (value2 hi lo) }
      let backups := (s.tables.breaker b).backupList
      let failed := (((s.setOrders (s.trip.orders ++
        [⟨b, .failed, causes, depth, s.deviceTime, 0, .stopped, .running 20, false⟩])).disturb).record
          (body .orderIssued depth 1)).record (body .orderFailed 2 depth)
      let t := s.ask b causes depth
      (2 ≤ depth → t = failed.record (body .escalationExhausted 0 1)) ∧
      (depth < 2 → backups = [] → t = failed.record (body .escalationExhausted 0 2)) ∧
      (depth < 2 → backups ≠ [] →
        t = backups.foldl (fun s b' => s.ask b' causes (depth + 1)) failed ∧
        (∃ o, t.order b = some o ∧ o.state = .failed ∧ o.failure = .stopped ∧ o.causes &&& causes = causes ∧
          o.depth ≤ depth) ∧
        (∃ later : List RecordBody, t.pool = later.foldl (fun p b => p.take s.deviceTime b) failed.pool) ∧
        ∀ b' ∈ backups, (s.position b').isSome = true →
          ∃ o ∈ t.trip.orders, o.breaker = b' ∧ o.causes &&& causes = causes))

/-- R112 and R120: an order asked for on a breaker that has one is merged into it, in its place; a FAILED one that gains a section or
depth below 2 stays FAILED, and then an order with the merged causes and the depth after the merged one is asked for on each of its
backups, in list order. -/
def Obligations.mergedOrders : Prop :=
  ∀ (s : State) (b depth : Nat) (causes : SectionSet) (o : Order), s.order b = some o →
    let merged : Order := { o with causes := o.causes ||| causes, depth := min o.depth depth }
    let into := s.updateOrder b fun o => { o with causes := o.causes ||| causes, depth := min o.depth depth }
    let backups := (s.tables.breaker b).backupList
    into.order b = some merged ∧
    ((o.state ≠ .failed ∨ (merged.causes = o.causes ∧ merged.depth = o.depth) ∨ 2 ≤ merged.depth) →
      s.ask b causes depth = into) ∧
    (o.state = .failed → (merged.causes ≠ o.causes ∨ merged.depth < o.depth) → merged.depth < 2 →
      s.ask b causes depth = backups.foldl (fun s b' => s.ask b' merged.causes (merged.depth + 1)) into ∧
      (o.failure = .stopped → ∃ o', (s.ask b causes depth).order b = some o' ∧ o'.state = .failed ∧
        o'.causes &&& merged.causes = merged.causes ∧ o'.depth ≤ merged.depth) ∧
      ∀ b' ∈ backups, (s.position b').isSome = true →
        ∃ o' ∈ (s.ask b causes depth).trip.orders, o'.breaker = b' ∧ o'.causes &&& merged.causes = merged.causes)

/-- R23, R114, R115 and R124: at each expiry of an order's resend timer the timer starts again, and one TRIP frame is queued when the
order is unopened, its breaker has a node and is not cut, no copy waits and the TRIP queue has room; at an idle output the frame
starts at once, and no copy waits. At the expiry of its
minimum-pulse timer a line becomes inactive when no order is held on it, and stays active otherwise. -/
def Obligations.resendsAndPulses : Prop :=
  (∀ (s : State) (b : Nat) (o : Order), Up s → s.order b = some o → o.resend.isRunning = true →
    let sendable : Bool := o.unopened && !s.isCut b && !o.waiting && (s.loop.tripQ.length < 16 : Bool)
    (∀ n, (s.tables.breaker b).nodeOf = some n → sendable = true →
      let f : TripFrame :=
        ⟨b, (s.tables.node n).address, (s.tables.breaker b).number, o.depth, min 65535 (o.age / 10)⟩
      (Busy s → exec (.resendTimerExpiry b) s = .next ((s.setLoop { s.loop with
        tripQ := s.loop.tripQ ++ [f] }).updateOrder b fun o => { o with resend := .running 20, waiting := true })) ∧
      (s.loop.sending = none → s.loop.tripQ = [] → exec (.resendTimerExpiry b) s = .next ((s.setLoop { s.loop with
        sending := some ⟨.trip f, s.loop.outSeq⟩, outSeq := s.loop.outSeq + 1 }).updateOrder b fun o => { o with
          resend := .running 20, waiting := false }))) ∧
    (((s.tables.breaker b).nodeOf = none ∨ sendable = false) →
      exec (.resendTimerExpiry b) s = .next (s.updateOrder b fun o => { o with resend := .running 20 }))) ∧
  ∀ (s : State) (l : Nat), Up s → (s.line l).pulse.isRunning = true → (s.line l).active = true →
    ((∀ o ∈ s.trip.orders, o.state = .opened ∨ s.lineOf o.breaker ≠ some l) →
      exec (.minimumPulseTimerExpiry l) s = .next (s.setLine l ⟨false, .stopped⟩)) ∧
    ((∃ o ∈ s.trip.orders, o.state ≠ .opened ∧ s.lineOf o.breaker = some l) →
      exec (.minimumPulseTimerExpiry l) s = .next (s.setLine l ⟨true, .stopped⟩))

/-- R21, R119, R120 and R122: an ISSUED order becomes FAILED when its failure timer expires, and when its breaker enters the cut set
without a trip line; it escalates to its backups, or leaves an ESCALATION_EXHAUSTED record. Every other order stands when its
breaker enters the cut set. -/
def Obligations.failuresEscalate : Prop :=
  ∀ (s : State) (b : Nat) (o : Order), s.order b = some o →
    let body (kind : RecordKind) (hi lo : Nat) : RecordBody :=
      { kind := kind, category := .trip, sect := lowestSection o.causes, breaker := some b, value := some (value2 hi lo) }
    let failed (reason : Nat) := (s.updateOrder b fun o => { o with state := .failed, failure := .stopped }).record
      (body .orderFailed reason o.depth)
    let backups := (s.tables.breaker b).backupList
    let escalated (reason : Nat) : State :=
      if 2 ≤ o.depth then (failed reason).record (body .escalationExhausted 0 1)
      else if backups = [] then (failed reason).record (body .escalationExhausted 0 2)
      else backups.foldl (fun s b' => s.ask b' o.causes (o.depth + 1)) (failed reason)
    (Up s → o.state = .issued → o.failure.isRunning = true →
      exec (.failureTimerExpiry b) s = .next (escalated 1)) ∧
    (o.state = .issued → s.isCut b = true → s.lineOf b = none → s.enterCut b = escalated 2) ∧
    ((o.state ≠ .issued ∨ s.isCut b = false ∨ s.lineOf b ≠ none) → s.enterCut b = s)

/-! ## Section Evaluator -/

/-- R83 to R90, R94, R95, R110 and R159: what contributes to a section, which points have data, when a section is INACTIVE, the rule in
force, the new state that an evaluation gives, the records that it makes and the timer that it starts; that a trip asks for an order
of depth 0, with the section as cause, on each boundary breaker in list order; and the evaluations that a report asks for. -/
def Obligations.tripDecision : Prop :=
  ∀ (s : State) (i : Nat),
    (∀ c, s.contributes i c = true ↔ s.tables.channelUsed c = true ∧ (s.tables.channel c).sect ≠ 0xFF ∧
      (s.tables.channel c).sect.toNat = i ∧ ∃ v, s.channelView c = some v ∧ (v.cond = .normal ∨ v.cond = .dirty)) ∧
    (∀ c, s.litIn i c = true ↔ s.contributes i c = true ∧ ∃ v, s.channelView c = some v ∧ v.light = .lit) ∧
    (∀ c, s.eligibleIn i c = true ↔ s.contributes i c = true ∧ ∃ v, s.channelView c = some v ∧ v.eligible = true) ∧
    (s.someLit i = true ↔ ∃ c, c < 96 ∧ s.litIn i c = true) ∧
    (∀ p, s.flagged p = true ↔ ∃ v, s.pointView p = some v ∧ v.confirm = true) ∧
    (∀ p, s.pointHasData p = true ↔ ∃ v, s.pointView p = some v ∧ v.cond = .normal) ∧
    ((s.sectionEntry i).mode ∈ [1, 2, 3] → (s.sectionInactive i = true ↔
      s.agent.mode = .unconfigured ∨ s.tables.sectionUsed i = false ∨ (s.sectionEntry i).mode = 3)) ∧
    ((s.sectionEntry i).mode = 2 → s.rule i = .lightOnly) ∧
    ((s.sectionEntry i).mode = 1 → (s.sectionRec i).maintenance = true → s.rule i = .lightOnly) ∧
    ((s.sectionEntry i).mode = 1 → (s.sectionRec i).maintenance = false →
      ((∃ p ∈ (s.sectionEntry i).confirmList, s.pointHasData p = true) → s.rule i = .lightAndCurrent) ∧
      ((∀ p ∈ (s.sectionEntry i).confirmList, s.pointHasData p = false) →
        ((s.sectionEntry i).fallback = 2 → s.rule i = .lightOnly) ∧
        ((s.sectionEntry i).fallback = 1 → s.rule i = .unconfirmable))) ∧
    (s.tripCondition i = true ↔
      (s.rule i = .lightOnly ∧ ∃ c, c < 96 ∧ s.eligibleIn i c = true) ∨
      (s.rule i = .lightAndCurrent ∧ (∃ c, c < 96 ∧ s.litIn i c = true) ∧
        ∃ p, p < 24 ∧ p ∈ (s.sectionEntry i).confirmList ∧ s.flagged p = true)) ∧
    (i < 16 → ∀ cause,
      (((s.evaluate i cause).sectionRec i).state =
        if s.tripCondition i then .tripped else if s.someLit i then .light else .armed) ∧
      ((s.evaluate i cause).sectionRec i).block = (s.sectionRec i).block ∧
      ((s.evaluate i cause).sectionRec i).maintenance = (s.sectionRec i).maintenance ∧
      (∀ j, j ≠ i → (s.evaluate i cause).sectionRec j = s.sectionRec j) ∧
      let r := s.sectionRec i
      let t := s.evaluate i cause
      let lowest (size : Nat) (has : Nat → Bool) : Option Nat := (List.range size).find? has
      let both : Bool := s.rule i = .lightAndCurrent
      let tripped : RecordBody :=
        { kind := .sectionTripped, category := .trip, sect := some i
          channel := (match cause with
            | .channel c => some c
            | .point _ => if both then lowest 96 (s.litIn i) else lowest 96 (s.eligibleIn i)
            | .other => if both then lowest 96 (s.litIn i) else lowest 96 (s.eligibleIn i))
          point := if both then (match cause with
            | .point p => some p
            | .channel _ => lowest 24 fun p => (s.sectionEntry i).confirmList.contains p && s.flagged p
            | .other => lowest 24 fun p => (s.sectionEntry i).confirmList.contains p && s.flagged p) else none
          value := some (value2 0 (if both then 2 else 1)) }
      let unconfirmable : RecordBody :=
        { kind := .lightUnconfirmable, category := .alarm, sect := some i, channel := lowest 96 (s.litIn i) }
      (s.tripCondition i = true →
        let entered : SectionRec := { r with
          state := .tripped, persistence := .stopped, persistentMade := false, unconfirmableMade := false }
        let disturbed : Agent := if s.agent.state = .validating then { s.agent with disturbed := true } else s.agent
        t.sectionRec i = entered ∧
        (∀ j, (sectionSet i).getLsbD j = decide (j = i)) ∧
        t = (s.sectionEntry i).boundaryList.foldl (fun s b => s.ask b (sectionSet i) 0)
          ((({ s with agent := disturbed } : State).setSection i entered).record tripped) ∧
        ∃ later : List RecordBody,
          t.pool = later.foldl (fun p b => p.take s.deviceTime b) (s.pool.take s.deviceTime tripped)) ∧
      (s.tripCondition i = false → s.someLit i = true →
        let before : SectionRec := if r.state = .light then r else { r with
          state := .light, persistence := .running 5000, persistentMade := false, unconfirmableMade := false }
        ((s.rule i = .unconfirmable ∧ before.unconfirmableMade = false) →
          t.sectionRec i = { before with unconfirmableMade := true } ∧ t.pool = s.pool.take s.deviceTime unconfirmable) ∧
        (¬(s.rule i = .unconfirmable ∧ before.unconfirmableMade = false) → t.sectionRec i = before ∧ t.pool = s.pool)) ∧
      (s.tripCondition i = false → s.someLit i = false →
        t.sectionRec i = { r with state := .armed, persistence := .stopped } ∧ t.pool = s.pool)) ∧
    let report (s : State) (j : Nat) (cause : Cause) : State :=
      if (s.sectionRec j).state = .armed ∨ (s.sectionRec j).state = .light then s.evaluate j cause else s
    (∀ v, s.reportChannel i v = (match (s.tables.channel i).sectOf with
      | none => s.setChannelView i v
      | some j => report (s.setChannelView i v) j (.channel i))) ∧
    ∀ v, s.reportPoint i v = ((List.range 16).filter fun j =>
      s.tables.sectionUsed j && (s.tables.sectionAt j).confirmList.contains i).foldl
        (fun s j => report s j (.point i)) (s.setPointView i v)

/-- R89 and R110: whatever command trips a section, the same command leaves an order on every boundary breaker of the section,
with the section in its cause set. -/
def Obligations.tripDemandsEveryBoundaryBreaker : Prop :=
  ∀ (c : Instr) (s t : State) (i b : Nat), exec c s = .next t → i < 16 → (s.sectionRec i).state ≠ .tripped →
    (t.sectionRec i).state = .tripped → b ∈ (t.tables.sectionAt i).boundaryList → (t.position b).isSome = true →
    ∃ o ∈ t.trip.orders, o.breaker = b ∧ o.causes.getLsbD i = true

/-- R82, R100 and R109: a TRIPPED section stays TRIPPED through every command but its own RELEASE and the end of a hard reset
(a frame's bytes at LOOP_RX can carry that RELEASE, and so can an UNKNOWN_REQUEST_CODE command whose code is known: neither is
the form this rule is about). -/
def Obligations.lockoutHolds : Prop :=
  ∀ (c : Instr) (s t : State) (i : Nat), exec c s = .next t → i < 16 → QuietWhileUndisturbed s →
    (s.sectionRec i).state = .tripped → (∀ mv, c ≠ .hardResetEnd mv) → (∀ bytes, c ≠ .frameArrival bytes) →
    (∀ source tag code params, c = .unknownRequestCode source tag code params → code ∉ requestCodes) →
    (∀ source tag sect, c = .release source tag [sect] → sect.toNat ≠ i) → (t.sectionRec i).state = .tripped

/-- R96 to R98: SET_BLOCK on and off with their checks, and the unblock of a BLOCKED section. That a flag change of an INACTIVE
section makes its record too is the model's choice (R92 against R97 and R98; log entry 19). -/
def Obligations.blockRequests : Prop :=
  (∀ (s : State) (source tag sect : Byte), Takes s source →
    let r := s.sectionRec sect.toNat
    let answered (t : State) (result : Result) := t.respond ⟨source, tag, 0x22, result, []⟩
    let blocked := s.setSection sect.toNat { r with
      block := true
      state := if r.state = .armed ∨ r.state = .light then .blocked else r.state
      persistence := if r.state = .light then .stopped else r.persistence }
    (s.agent.mode = .unconfigured →
      exec (.setBlockOn source tag sect) s = .next (answered s .unconfigured)) ∧
    (s.agent.mode = .protecting → 16 ≤ sect.toNat →
      exec (.setBlockOn source tag sect) s = .next (answered s .badIndex)) ∧
    (s.agent.mode = .protecting → sect.toNat < 16 → r.block = false →
      exec (.setBlockOn source tag sect) s = .next (answered (blocked.record
        { kind := .blockChange, category := .notice, sect := some sect.toNat, value := some (value2 0 1) }) .ok)) ∧
    (s.agent.mode = .protecting → sect.toNat < 16 → r.block = true →
      exec (.setBlockOn source tag sect) s = .next (answered blocked .ok))) ∧
  (∀ (s : State) (source tag sect : Byte), Takes s source →
    let refused (result : Result) :=
      exec (.setBlockOff source tag sect) s = .next (s.respond ⟨source, tag, 0x22, result, []⟩)
    (s.agent.mode = .unconfigured → refused .unconfigured) ∧
    (s.agent.mode = .protecting → 16 ≤ sect.toNat → refused .badIndex)) ∧
  ∀ (s : State) (source tag sect : Byte), Takes s source → s.agent.mode = .protecting → sect.toNat < 16 →
    let r := s.sectionRec sect.toNat
    let change : RecordBody :=
      { kind := .blockChange, category := .notice, sect := some sect.toNat, value := some (value2 0 0) }
    let answered (t : State) := t.respond ⟨source, tag, 0x22, .ok, []⟩
    (r.state ≠ .blocked → r.block = false → exec (.setBlockOff source tag sect) s =
      .next (answered (s.setSection sect.toNat { r with block := false }))) ∧
    (r.state ≠ .blocked → r.block = true → exec (.setBlockOff source tag sect) s =
      .next (answered ((s.setSection sect.toNat { r with block := false }).record change))) ∧
    (r.state = .blocked → r.block = true → exec (.setBlockOff source tag sect) s =
      .next (answered (((s.setSection sect.toNat { r with block := false, state := .armed }).record change).evaluate
        sect.toNat .other)))

/-- R96 and R99: SET_MAINTENANCE with its checks. That a flag change of an INACTIVE section makes its record too is the model's
choice (R92 against R99; log entry 19). -/
def Obligations.maintenanceChange : Prop :=
  (∀ (s : State) (source tag sect value : Byte), Takes s source → value ∈ [0, 1] →
    let refused (result : Result) :=
      exec (.setMaintenance source tag [sect, value]) s = .next (s.respond ⟨source, tag, 0x21, result, []⟩)
    (s.agent.mode = .unconfigured → refused .unconfigured) ∧
    (s.agent.mode = .protecting → 16 ≤ sect.toNat → refused .badIndex)) ∧
  ∀ (s : State) (source tag sect value : Byte) (on : Bool), Takes s source → s.agent.mode = .protecting →
    sect.toNat < 16 → value = flagByte on →
    let r := s.sectionRec sect.toNat
    let changed := (s.setSection sect.toNat { r with maintenance := on }).record
      { kind := .maintenanceChange, category := .notice, sect := some sect.toNat,
        value := some (value2 0 (if on then 1 else 0)) }
    let answered (t : State) := t.respond ⟨source, tag, 0x21, .ok, []⟩
    (r.maintenance = on → exec (.setMaintenance source tag [sect, value]) s = .next (answered s)) ∧
    (r.maintenance ≠ on → (r.state = .armed ∨ r.state = .light) →
      exec (.setMaintenance source tag [sect, value]) s =
        .next (answered (changed.evaluate sect.toNat .other))) ∧
    (r.maintenance ≠ on → r.state ≠ .armed → r.state ≠ .light →
      exec (.setMaintenance source tag [sect, value]) s = .next (answered changed))

/-- R96, R100 and R126: an accepted RELEASE removes the section from every cause set, removes the orders left without a cause,
leaves the section ARMED or BLOCKED with its SECTION_RELEASED record, and is answered OK; a refused one changes nothing but for its
answer, UNCONFIGURED, BAD_INDEX or REFUSED_STATE. -/
def Obligations.releaseOfASection : Prop :=
  ∀ (s : State) (source tag sect : Byte), Takes s source →
    let i := sect.toNat
    let r := s.sectionRec i
    let refused (result : Result) :=
      exec (.release source tag [sect]) s = .next (s.respond ⟨source, tag, 0x20, result, []⟩)
    (s.agent.mode = .unconfigured → refused .unconfigured) ∧
    (s.agent.mode = .protecting → 16 ≤ i → refused .badIndex) ∧
    (s.agent.mode = .protecting → i < 16 → (r.state ≠ .tripped ∨ s.someLit i = true) → refused .refusedState) ∧
    (s.agent.mode = .protecting → i < 16 → r.state = .tripped → s.someLit i = false → OneOrderPerBreaker s →
      (∀ o ∈ s.trip.orders, o.causes ≠ 0) →
      ∃ t : State, exec (.release source tag [sect]) s = .next (t.respond ⟨source, tag, 0x20, .ok, []⟩) ∧
        t.sectionRec i = { r with state := if r.block then .blocked else .armed } ∧
        (∀ j, j ≠ i → t.sectionRec j = s.sectionRec j) ∧
        t.trip.orders = s.trip.orders.filterMap (fun o =>
          let left := o.causes &&& ~~~ sectionSet i
          if left = 0 then none else some { o with causes := left }) ∧
        (∀ f, f ∈ t.loop.tripQ ↔ f ∈ s.loop.tripQ ∧
          ∀ o ∈ s.trip.orders, o.breaker = f.breaker → o.causes &&& ~~~ sectionSet i ≠ 0) ∧
        t.loop = { s.loop with tripQ := t.loop.tripQ } ∧
        t.pool = s.pool.take s.deviceTime { kind := .sectionReleased, category := .trip, sect := some i } ∧
        t.nodes = s.nodes ∧ t.channels = s.channels ∧ t.points = s.points ∧ t.trip.positions = s.trip.positions ∧
        t.lens = s.lens ∧ t.agent = s.agent ∧ t.store = s.store ∧ t.supply = s.supply)

/-! ## Lens Check Engine -/

/-- R134 to R136, R145, R159 and R168: the acceptance checks of TEST_LENS in their order, and what an accepted test sets; with a frame
being sent, its TEST(on) frame is queued or held, and so is its answer OK. -/
def Obligations.lensTestAcceptance : Prop :=
  ∀ (s : State) (source tag channel : Byte), Takes s source →
    let c := channel.toNat
    let e := s.tables.channel c
    let refused (r : Result) := exec (.testLens source tag [channel]) s = .next (s.respond ⟨source, tag, 0x23, r, []⟩)
    let on : TestFrame := ⟨(s.tables.node e.node.toNat).address, e.number, true⟩
    let ok : Response := ⟨source, tag, 0x23, .ok, []⟩
    (s.agent.mode = .unconfigured → refused .unconfigured) ∧
    (s.agent.mode = .protecting → (96 ≤ c ∨ s.tables.channelUsed c = false) → refused .badIndex) ∧
    (s.agent.mode = .protecting → c < 96 → s.tables.channelUsed c = true →
      (s.lens.state ≠ .idle → refused .busy) ∧
      ∀ r, s.channel c = some r → s.lens.state = .idle →
        (r.cond = .noData → refused .refusedState) ∧
        (r.cond ≠ .noData → ∀ i, e.sectOf = some i →
          ((s.sectionRec i).state = .light ∨ (s.sectionRec i).state = .tripped → refused .refusedState) ∧
          ((s.sectionRec i).state = .armed → s.contributes i c = true →
            (∀ c', c' < 96 → c' ≠ c → s.contributes i c' = false) → refused .refusedSole)) ∧
        (r.cond ≠ .noData →
          (∀ i, e.sectOf = some i → (s.sectionRec i).state ≠ .light ∧ (s.sectionRec i).state ≠ .tripped ∧
            ((s.sectionRec i).state = .armed → s.contributes i c = true →
              ∃ c', c' < 96 ∧ c' ≠ c ∧ s.contributes i c' = true)) →
          ∃ t, exec (.testLens source tag [channel]) s = .next t ∧ t.lens.state = .starting ∧
            t.lens.channel = some c ∧ t.lens.peak = 0 ∧ t.lens.count = 0 ∧ t.lens.startWait = .running 200 ∧
            t.channel c = some { r with cond := .testing } ∧ (∀ j, j ≠ c → t.channel j = s.channel j) ∧
            (s.agent.state = .validating → t.agent.disturbed = true) ∧
            t.points = s.points ∧ t.trip.positions = s.trip.positions ∧ t.nodes = s.nodes ∧
            (Busy s →
              (s.lens.held = [] → s.loop.controlQ.length < 4 →
                t.loop.controlQ = s.loop.controlQ ++ [.test on] ∧ t.lens.held = []) ∧
              ((s.lens.held ≠ [] ∨ 4 ≤ s.loop.controlQ.length) →
                t.loop.controlQ = s.loop.controlQ ∧ t.lens.held = s.lens.held ++ [on]) ∧
              (s.loop.routineQ.length < 4 → t.loop.routineQ = s.loop.routineQ ++ [ok] ∧ t.agent.held = []) ∧
              (4 ≤ s.loop.routineQ.length → t.loop.routineQ = s.loop.routineQ ∧ t.agent.held = [ok]))))

/-- R138, R139, R141, R142, R146 and R64: a test that waits too long ends with NO_RESPONSE, and a complete window hands over its
gain and standing; either returns the channel to its standing and the engine to IDLE, with its LENS_RESULT record and its
TEST(off) frame. Gn is 256 times Pref over Ppk, rounded to the nearest integer, a half upward. That TEST_WINDOW_COMPLETE stands
for a flagged sample no brighter than the peak, and acts only where one is missing, is the model's choice (log entry 3). -/
def Obligations.lensTestEndings : Prop :=
  (∀ (s : State) (c : Nat) (r : ChannelRec), Up s → s.lens.channel = some c → s.channel c = some r → r.cond = .testing →
    s.nodeLive (s.tables.channel c).node.toNat = true →
    (s.lens.startWait.isRunning = true → ∃ t, exec .startWaitTimerExpiry s = .next t ∧
      TestEnds s t c s.lens.peak s.lens.count r.gain .noResponse ∧ t.channel c = some { r with cond := r.standing.cond } ∧
      (∀ j, j ≠ c → t.channel j = s.channel j) ∧ t.nodes = s.nodes ∧ t.points = s.points) ∧
    (s.lens.state = .measuring → s.lens.count + 1 = (s.tables.channel c).testWindow.toNat →
      let g := gainResult (s.tables.channel c).reference.toNat s.lens.peak r.gain
      ∃ t, exec .testWindowComplete s = .next t ∧
        TestEnds s t c s.lens.peak (s.lens.count + 1) g.2.1 g.1 ∧
        t.channel c = some { r with gain := g.2.1, standing := g.2.2, cond := g.2.2.cond } ∧
        (∀ j, j ≠ c → t.channel j = s.channel j) ∧ t.nodes = s.nodes ∧ t.points = s.points) ∧
    (s.lens.count + 1 ≠ (s.tables.channel c).testWindow.toNat → exec .testWindowComplete s = .next s)) ∧
  ∀ reference peak gain : Nat,
    (peak < reference / 8 → gainResult reference peak gain = (.blocked, gain, .dirty)) ∧
    (reference / 8 ≤ peak → 0 < peak → ∃ gn, 2 * peak * gn ≤ 2 * 256 * reference + peak ∧
      2 * 256 * reference + peak < 2 * peak * (gn + 1) ∧
      (1023 < gn → gainResult reference peak gain = (.dirty, 1023, .dirty)) ∧
      (gn ≤ 1023 → gainResult reference peak gain = (.done, max 256 gn, .normal)))

/-- R63, R137, R138 and R140: a LIGHT_SAMPLE frame to the TESTING channel under test. Its gap is discarded; up to the ceiling a
flagged sample is counted, an unflagged one is passed over in STARTING and ends the test with NO_RESPONSE in MEASURING; above
the ceiling the test ends with ABORTED_LIGHT and the sample is then processed. -/
def Obligations.lensTestSamples : Prop :=
  ∀ (s : State) (source seq hi lo last : Byte) (n c level : Nat) (flag : Bool) (timer : Timer) (r : ChannelRec),
    Up s → source ≠ 0 → s.admission .light source [1, hi, lo] = some (n, .light [(level, flag)]) →
    s.node n = some ⟨.live, some last, timer⟩ → 1 ≤ (seq - last).toNat → (seq - last).toNat ≤ 128 →
    s.channelAt n 0 = some c → s.channel c = some r → r.cond = .testing → s.lens.channel = some c →
    s.lens.state ≠ .idle →
    let e := s.tables.channel c
    let stamped : NodeRec := ⟨.live, some seq, .running (10 * (s.tables.node n).stale.toNat)⟩
    let received : ChannelRec := { r with raw := some level }
    let heard := (s.setNode n stamped).setChannel c received
    let counted (count peak : Nat) : State := { heard with lens := { s.lens with
      state := .measuring, startWait := .stopped, count := count, peak := peak } }
    let ceiling := min 4095 (3 * e.reference.toNat)
    let answers (t : State) : Prop := exec (.lightSample source seq [1, hi, lo]) s = .next t
    let ended (peak count gain : Nat) (result : LensResult) (left : ChannelRec) : Prop :=
      ∃ t, answers t ∧ TestEnds s t c peak count gain result ∧ t.channel c = some left ∧
        (∀ j, j ≠ c → t.channel j = s.channel j) ∧ t.nodes = heard.nodes ∧ t.points = s.points ∧
        t.trip.positions = s.trip.positions
    (level ≤ ceiling →
      (s.lens.state = .starting → flag = false → answers heard) ∧
      (s.lens.state = .starting → flag = true → e.testWindow.toNat ≠ 1 → answers (counted 1 level)) ∧
      (s.lens.state = .measuring → flag = true → s.lens.count + 1 ≠ e.testWindow.toNat →
        answers (counted (s.lens.count + 1) (max s.lens.peak level))) ∧
      (s.lens.state = .measuring → flag = true → s.lens.count + 1 = e.testWindow.toNat →
        let peak := max s.lens.peak level
        let g := gainResult e.reference.toNat peak r.gain
        ended peak (s.lens.count + 1) g.2.1 g.1
          { received with gain := g.2.1, standing := g.2.2, cond := g.2.2.cond }) ∧
      (s.lens.state = .measuring → flag = false →
        ended s.lens.peak s.lens.count r.gain .noResponse { received with cond := r.standing.cond })) ∧
    (ceiling < level → ended s.lens.peak s.lens.count r.gain .abortedLight
      (ChannelRec.process e { received with cond := r.standing.cond } (.received level)).1)

/-! ## Protection tables -/

/-- R195: the bytes of the five entry images, field by field, a two-byte field high byte first; an entry image carries every field of
its entry, and an entry keeps every byte of its image. -/
def Obligations.entryImagesRoundTrip : Prop :=
  (let hi (w : Word16) : Byte := w.extractLsb' 8 8
  let lo (w : Word16) : Byte := w.extractLsb' 0 8
  (∀ e : NodeEntry, e.image = [e.inUse, e.address, e.kind, e.count, e.position, e.stale]) ∧
  (∀ e : ChannelEntry, e.image = [e.inUse, e.node, e.number, e.sect, hi e.threshold, lo e.threshold, hi e.decay, lo e.decay,
    hi e.qualify, lo e.qualify, hi e.window, lo e.window, e.limit, hi e.gain0, lo e.gain0, hi e.reference, lo e.reference,
    e.testWindow]) ∧
  (∀ e : PointEntry, e.image =
    [e.inUse, e.node, e.number, hi e.scale, lo e.scale, hi e.pickup, lo e.pickup, e.stretch]) ∧
  (∀ e : BreakerEntry, e.image =
    [e.inUse, e.node, e.number, e.line, hi e.failure, lo e.failure, e.backupLen, e.backup0, e.backup1, e.backup2]) ∧
  ∀ e : SectionEntry, e.image = [e.inUse, e.mode, e.fallback, e.boundaryLen] ++ e.boundary.toList ++ [e.confirmLen] ++
    e.confirm.toList) ∧
  (∀ e : NodeEntry, .ofImage e.image = e) ∧ (∀ e : ChannelEntry, .ofImage e.image = e) ∧
  (∀ e : PointEntry, .ofImage e.image = e) ∧ (∀ e : BreakerEntry, .ofImage e.image = e) ∧
  (∀ e : SectionEntry, .ofImage e.image = e) ∧
  ∀ b : List Byte,
    (b.length = 6 → (NodeEntry.ofImage b).image = b) ∧ (b.length = 18 → (ChannelEntry.ofImage b).image = b) ∧
    (b.length = 8 → (PointEntry.ofImage b).image = b) ∧ (b.length = 10 → (BreakerEntry.ofImage b).image = b) ∧
    (b.length = 19 → (SectionEntry.ofImage b).image = b)

/-- R154, R169 and R174: WRITE_SHADOW writes its images into the shadow set and nothing else, or is answered with the first failing
check; READ_TABLE returns as many whole images as fit in the response, up to the count asked for. -/
def Obligations.tableWritesAndReads : Prop :=
  (∀ (s : State) (source tag first : Byte) (table : TableId) (images : List (List Byte)), Takes s source →
    images ≠ [] → (∀ x ∈ images, x.length = table.imageLength) →
    let command : Instr := .writeShadow source tag (byte table.code :: first :: images.flatten)
    (s.agent.state = .validating → exec command s = .next (s.respond ⟨source, tag, 0x10, .busy, []⟩)) ∧
    (s.agent.state = .idle → table.size < first.toNat + images.length →
      exec command s = .next (s.respond ⟨source, tag, 0x10, .badIndex, []⟩)) ∧
    (s.agent.state = .idle → first.toNat + images.length ≤ table.size → ∃ shadow : Tables,
      exec command s = .next (({ s with agent := { s.agent with shadow := shadow } } : State).respond
        ⟨source, tag, 0x10, .ok, [byte table.code, first, byte images.length]⟩) ∧
      (∀ k x, images[k]? = some x → shadow.image table (first.toNat + k) = x) ∧
      (∀ i, i < first.toNat ∨ first.toNat + images.length ≤ i → shadow.image table i = s.agent.shadow.image table i) ∧
      ∀ other i, other ≠ table → shadow.image other i = s.agent.shadow.image other i)) ∧
  ∀ (s : State) (source tag first count : Byte) (table : TableId) (shadowSet : Bool), Takes s source →
    let set := if shadowSet then s.agent.shadow else s.agent.active
    let command : Instr := .readTable source tag [byte table.code, flagByte shadowSet, first, count]
    (count = 0 → exec command s = .next (s.respond ⟨source, tag, 0x05, .badRequest, []⟩)) ∧
    (count ≠ 0 → table.size < first.toNat + count.toNat →
      exec command s = .next (s.respond ⟨source, tag, 0x05, .badIndex, []⟩)) ∧
    (count ≠ 0 → first.toNat + count.toNat ≤ table.size → ∃ n, n ≤ count.toNat ∧
      (n = count.toNat ∨ 200 < 7 + (n + 1) * table.imageLength) ∧ 7 + n * table.imageLength ≤ 200 ∧
      exec command s = .next (s.respond ⟨source, tag, 0x05, .ok, byte table.code :: flagByte shadowSet :: first ::
        byte n :: (List.range n).flatMap fun i => set.image table (first.toNat + i)⟩))

/-- R155 and R158: DISCARD_SHADOW, and the checks of ACTIVATE before it begins a validation. -/
def Obligations.discardAndActivate : Prop :=
  ∀ (s : State) (source tag : Byte), Takes s source →
    (s.agent.state = .validating →
      exec (.discardShadow source tag []) s = .next (s.respond ⟨source, tag, 0x11, .busy, []⟩) ∧
      exec (.activate source tag []) s = .next (s.respond ⟨source, tag, 0x12, .busy, []⟩)) ∧
    (s.agent.state = .idle →
      exec (.discardShadow source tag []) s = .next (({ s with agent := { s.agent with
        shadow := s.agent.active } } : State).respond ⟨source, tag, 0x11, .ok, []⟩) ∧
      (s.store.state = .writing →
        exec (.activate source tag []) s = .next (s.respond ⟨source, tag, 0x12, .storeBusy, []⟩)) ∧
      (s.store.state ≠ .writing →
        (s.trip.orders ≠ [] ∨ s.lens.state ≠ .idle ∨
          ∃ i, i < 16 ∧ ((s.sectionRec i).state = .light ∨ (s.sectionRec i).state = .tripped)) →
        exec (.activate source tag []) s = .next (s.respond ⟨source, tag, 0x12, .refusedState, []⟩)) ∧
      (s.store.state ≠ .writing → s.trip.orders = [] → s.lens.state = .idle →
        (∀ i, i < 16 → (s.sectionRec i).state ≠ .light ∧ (s.sectionRec i).state ≠ .tripped) →
        exec (.activate source tag []) s = .next { s with agent := { s.agent with
          state := .validating, activation := some ⟨tag, source⟩, disturbed := false } }))

/-- R156 and R157: a set passes when every in-use entry passes its check, and a failure names the first entry that fails, of the first
table in which one does; the five checks in full. -/
def Obligations.validationFindsFirstFailure : Prop :=
  ∀ t : Tables,
    let pass (size : Nat) (used ok : Nat → Bool) : Prop := ∀ i, i < size → used i = true → ok i = true
    let first (size : Nat) (used ok : Nat → Bool) (i : Nat) : Prop :=
      i < size ∧ used i = true ∧ ok i = false ∧ ∀ j, j < i → used j = true → ok j = true
    let nodes := pass 48 t.nodeUsed t.nodeOk
    let channels := pass 96 t.channelUsed t.channelOk
    let points := pass 24 t.pointUsed t.pointOk
    let breakers := pass 24 t.breakerUsed t.breakerOk
    let names (node number kind : Byte) : Prop := node.toNat < 48 ∧ t.nodeUsed node.toNat = true ∧
      (t.node node.toNat).kind = kind ∧ number.toNat < (t.node node.toNat).count.toNat
    (t.validate = none ↔ nodes ∧ channels ∧ points ∧ breakers ∧ pass 16 t.sectionUsed t.sectionOk) ∧
    (∀ f, t.validate = some f →
      (f.table, f.check) ∈ [(TableId.node, 1), (.channel, 2), (.point, 3), (.breaker, 4), (.sect, 5)]) ∧
    (∀ i,
      (t.validate = some ⟨.node, i, 1⟩ ↔ first 48 t.nodeUsed t.nodeOk i) ∧
      (t.validate = some ⟨.channel, i, 2⟩ ↔ nodes ∧ first 96 t.channelUsed t.channelOk i) ∧
      (t.validate = some ⟨.point, i, 3⟩ ↔ nodes ∧ channels ∧ first 24 t.pointUsed t.pointOk i) ∧
      (t.validate = some ⟨.breaker, i, 4⟩ ↔ nodes ∧ channels ∧ points ∧ first 24 t.breakerUsed t.breakerOk i) ∧
      (t.validate = some ⟨.sect, i, 5⟩ ↔
        nodes ∧ channels ∧ points ∧ breakers ∧ first 16 t.sectionUsed t.sectionOk i)) ∧
    ∀ i,
      (t.nodeOk i = true ↔
        let e := t.node i
        (1 ≤ e.address.toNat ∧ e.address.toNat ≤ 254) ∧ (1 ≤ e.position.toNat ∧ e.position.toNat ≤ 48) ∧
        (∀ j, j < i → t.nodeUsed j = true → (t.node j).address ≠ e.address ∧ (t.node j).position ≠ e.position) ∧
        (e.kind = 1 ∧ 1 ≤ e.count.toNat ∧ e.count.toNat ≤ 4 ∨
          (e.kind = 2 ∨ e.kind = 3) ∧ 1 ≤ e.count.toNat ∧ e.count.toNat ≤ 2) ∧
        1 ≤ e.stale.toNat ∧ e.stale.toNat ≤ 50) ∧
      (t.channelOk i = true ↔
        let e := t.channel i
        names e.node e.number 1 ∧
        (∀ j, j < i → t.channelUsed j = true → (t.channel j).node = e.node → (t.channel j).number ≠ e.number) ∧
        (e.sect = 0xFF ∨ e.sect.toNat ≤ 15) ∧ (1 ≤ e.threshold.toNat ∧ e.threshold.toNat ≤ 4094) ∧
        (1 ≤ e.decay.toNat ∧ e.decay.toNat ≤ 4095) ∧ 1 ≤ e.qualify.toNat ∧
        (e.window = 0 ∨ 8 ≤ e.window.toNat ∧ e.window.toNat ≤ 4095) ∧ (2 ≤ e.limit.toNat ∧ e.limit.toNat ≤ 15) ∧
        (256 ≤ e.gain0.toNat ∧ e.gain0.toNat ≤ 1023) ∧ (64 ≤ e.reference.toNat ∧ e.reference.toNat ≤ 4095) ∧
        16 ≤ e.testWindow.toNat) ∧
      (t.pointOk i = true ↔
        let e := t.point i
        names e.node e.number 2 ∧
        (∀ j, j < i → t.pointUsed j = true → (t.point j).node = e.node → (t.point j).number ≠ e.number) ∧
        1 ≤ e.scale.toNat ∧ 1 ≤ e.pickup.toNat ∧ 1 ≤ e.stretch.toNat) ∧
      (t.breakerOk i = true ↔
        let e := t.breaker i
        (e.node ≠ 0xFF ∨ e.line ≠ 0xFF) ∧
        (e.node ≠ 0xFF → names e.node e.number 3 ∧
          ∀ j, j < i → t.breakerUsed j = true → (t.breaker j).node = e.node → (t.breaker j).number ≠ e.number) ∧
        (e.line = 0xFF ∨ e.line.toNat ≤ 3) ∧ e.backupLen.toNat ≤ 3 ∧
        (∀ b ∈ e.backupList, b < 24 ∧ t.breakerUsed b = true ∧ b ≠ i) ∧ e.backupList.Nodup ∧
        20 ≤ e.failure.toNat ∧ e.failure.toNat ≤ 500) ∧
      (t.sectionOk i = true ↔
        let e := t.sectionAt i
        (e.mode = 1 ∨ e.mode = 2 ∨ e.mode = 3) ∧ (e.fallback = 1 ∨ e.fallback = 2) ∧
        (1 ≤ e.boundaryLen.toNat ∧ e.boundaryLen.toNat ≤ 8) ∧
        (∀ b ∈ e.boundaryList, b < 24 ∧ t.breakerUsed b = true) ∧ e.boundaryList.Nodup ∧
        e.confirmLen.toNat ≤ 6 ∧ (∀ p ∈ e.confirmList, p < 24 ∧ t.pointUsed p = true) ∧ e.confirmList.Nodup ∧
        (e.mode = 1 → e.confirmLen ≠ 0) ∧
        (e.mode ≠ 3 → ∃ c, c < 96 ∧ t.channelUsed c = true ∧ (t.channel c).sect ≠ 0xFF ∧
          (t.channel c).sect.toNat = i))

/-- R19, R41, R65, R78, R87, R102, R130 and R160 to R162: how a validation completes; a swap's answer, its TABLES_ACTIVATED record with
the mode before, the records that are kept and those that start afresh, the Loop Port on the new tables, and the sections. That
the stored image is the new set from the moment the write begins is the model's choice (log entry 7): R188 gives the stages of
the write (the marker is cleared, the image written and read back), and no moment of the image. -/
def Obligations.validationCompletion : Prop :=
  ∀ (s : State) (source tag : Byte), Up s → s.agent.state = .validating → s.agent.activation = some ⟨tag, source⟩ →
    let ended : State := { s with agent := { s.agent with state := .idle, activation := none, disturbed := false } }
    (s.agent.disturbed = true →
      exec .validationComplete s = .next (ended.respond ⟨source, tag, 0x12, .refusedState, []⟩)) ∧
    (∀ f, s.agent.disturbed = false → s.agent.shadow.validate = some f →
      exec .validationComplete s = .next (ended.respond
        ⟨source, tag, 0x12, .invalidTables, [byte f.table.code, byte f.index, byte f.check]⟩)) ∧
    (s.agent.disturbed = false → s.agent.shadow.validate = none →
      let old := s.agent.active
      let new := s.agent.shadow
      let nodeKept (n : Nat) : Prop := old.nodeUsed n = true ∧ new.nodeUsed n = true ∧
        (old.node n).address = (new.node n).address ∧ (old.node n).kind = (new.node n).kind
      let channelKept (c : Nat) : Prop := old.channelUsed c = true ∧ new.channelUsed c = true ∧
        ({ old.channel c with inUse := 1 } : ChannelEntry) = { new.channel c with inUse := 1 } ∧
        nodeKept (new.channel c).node.toNat
      let pointKept (p : Nat) : Prop := old.pointUsed p = true ∧ new.pointUsed p = true ∧
        ({ old.point p with inUse := 1 } : PointEntry) = { new.point p with inUse := 1 } ∧
        nodeKept (new.point p).node.toNat
      let breakerKept (b : Nat) : Prop := old.breakerUsed b = true ∧ new.breakerUsed b = true ∧
        (old.breaker b).number = (new.breaker b).number ∧
        ∃ n, (old.breaker b).nodeOf = some n ∧ (new.breaker b).nodeOf = some n ∧ nodeKept n
      let activated : EventPool := s.pool.take s.deviceTime
        { kind := .tablesActivated, category := .notice,
          value := some (value2 0 (match s.agent.mode with
            | .unconfigured => 0
            | .protecting => 1)) }
      let result : ClaimResult :=
        ({ s with agent := { s.agent with active := new, mode := .protecting } } : State).compareClaim s.loop.claimList
      let compared : EventPool :=
        if s.loop.state = .loopClosed ∧ result ≠ s.loop.result then activated.take s.deviceTime (claimRecord result)
        else activated
      ∃ t : State, exec .validationComplete s = .next (t.respond ⟨source, tag, 0x12, .ok, []⟩) ∧
        t.agent.active = new ∧ t.agent.shadow = new ∧
        t.agent.mode = .protecting ∧ t.agent.state = .idle ∧ t.agent.activation = none ∧
        t.store = ⟨.writing, false, new⟩ ∧
        (∃ later : List RecordBody, t.pool = later.foldl (fun p b => p.take s.deviceTime b) compared) ∧
        (t.loop.state = s.loop.state ∧ t.loop.claimList = s.loop.claimList ∧
          t.loop.result = (if s.loop.state = .loopClosed then result else s.loop.result) ∧
          t.loop.breakPos = (if s.loop.state = .loopOpen then some t.breakPosition else s.loop.breakPos) ∧
          t.loop.cutSet = if s.loop.state = .loopOpen then t.cutSetAt t.breakPosition else s.loop.cutSet) ∧
        (∀ i, i < 16 → (t.sectionRec i).maintenance = (s.sectionRec i).maintenance ∧
          (t.sectionRec i).block = (s.sectionRec i).block ∧
          ((s.sectionRec i).state ≠ .tripped → (t.sectionRec i).state =
            if t.sectionInactive i then .inactive else if (s.sectionRec i).block then .blocked
            else if t.tripCondition i then .tripped else if t.someLit i then .light else .armed)) ∧
        (∀ n, n < 48 → (nodeKept n → t.node n = s.node n) ∧
          (¬nodeKept n → t.node n = if new.nodeUsed n then some ⟨.absent, none, .stopped⟩ else none)) ∧
        (∀ c, c < 96 → (channelKept c → t.channel c = s.channel c) ∧
          (¬channelKept c → t.channel c = if new.channelUsed c then
            some (.fresh (new.channel c) (if t.nodeLive (new.channel c).node.toNat then .normal else .noData)) else none)) ∧
        (∀ p, p < 24 → (pointKept p → t.point p = s.point p) ∧
          (¬pointKept p → t.point p = if new.pointUsed p then
            some ⟨0, if t.nodeLive (new.point p).node.toNat then .normal else .noData⟩ else none)) ∧
        ∀ b, b < 24 → (breakerKept b → t.position b = s.position b) ∧
          (¬breakerKept b → t.position b = if new.breakerUsed b then some .unknown else none))

/-! ## Management requests -/

/-- R167, R169 and R193: while a response is held or a soft reset is pending, every request is discarded with no effect; a request
of an unknown code, of another length than its code requires, or with a code or a count that is none of its values, is answered
BAD_REQUEST and has no other effect. A SET_BLOCK of another form is a frame's: it is none of the SET_BLOCK commands. -/
def Obligations.refusedRequests : Prop :=
  (∀ (s : State) (source tag sect code : Byte) (params : List Byte),
    (s.agent.held ≠ [] ∨ s.agent.softResetPending = true) →
    ∀ c ∈ [Instr.readStatus source tag params, .readEvents source tag params, .readChannel source tag params,
      .readOrders source tag params, .readTable source tag params, .writeShadow source tag params,
      .discardShadow source tag params, .activate source tag params, .release source tag params,
      .setMaintenance source tag params, .setBlockOn source tag sect, .setBlockOff source tag sect,
      .testLens source tag params, .reclaim source tag params, .softReset source tag params,
      .unknownRequestCode source tag code params], exec c s = .next s) ∧
  (∀ (s : State) (source tag code : Byte) (params : List Byte), Takes s source →
    let bad (c : Instr) (code : Byte) := exec c s = .next (s.respond ⟨source, tag, code, .badRequest, []⟩)
    (code ∉ requestCodes → bad (.unknownRequestCode source tag code params) code) ∧
    (params.length ≠ 0 → bad (.readStatus source tag params) 0x01 ∧ bad (.discardShadow source tag params) 0x11 ∧
      bad (.activate source tag params) 0x12 ∧ bad (.reclaim source tag params) 0x30 ∧
      bad (.softReset source tag params) 0x31) ∧
    (params.length ≠ 1 → bad (.readChannel source tag params) 0x03 ∧ bad (.readOrders source tag params) 0x04 ∧
      bad (.release source tag params) 0x20 ∧ bad (.testLens source tag params) 0x23) ∧
    (params.length ≠ 2 → bad (.readEvents source tag params) 0x02 ∧ bad (.setMaintenance source tag params) 0x21) ∧
    (params.length ≠ 4 → bad (.readTable source tag params) 0x05) ∧
    (params.length < 3 → bad (.writeShadow source tag params) 0x10) ∧
    (∀ chain max : Byte, (chain ∉ [0, 1] ∨ max = 0 ∨ 8 < max.toNat) → bad (.readEvents source tag [chain, max]) 0x02) ∧
    (∀ table set first count : Byte, (table ∉ [1, 2, 3, 4, 5] ∨ set ∉ [0, 1] ∨ count = 0) →
      bad (.readTable source tag [table, set, first, count]) 0x05) ∧
    (∀ table first : Byte, table ∉ [1, 2, 3, 4, 5] → bad (.writeShadow source tag (table :: first :: params)) 0x10) ∧
    (∀ (table : TableId) (first : Byte), ¬ table.imageLength ∣ params.length →
      bad (.writeShadow source tag (byte table.code :: first :: params)) 0x10) ∧
    ∀ sect value : Byte, value ∉ [0, 1] → bad (.setMaintenance source tag [sect, value]) 0x21) ∧
  ∀ (s : State) (f : Frame) (tag : Byte) (params : List Byte), Takes s f.source → f.dest = 0 → f.kind = 0x40 →
    f.payload = tag :: 0x22 :: params → f.payload.length ≤ 200 →
    (params.length ≠ 2 ∨ ∃ sect value, params = [sect, value] ∧ value ∉ [0, 1]) →
    exec (.frameArrival f.bytes) s = .next (s.respond ⟨f.source, tag, 0x22, .badRequest, []⟩)

/-- R170, R172, R173 and R193: READ_STATUS, READ_CHANNEL and READ_ORDERS answer with the state as it stands, item by item, and
change nothing else. -/
def Obligations.readingRequests : Prop :=
  ∀ (s : State) (source tag index : Byte), Takes s source →
    let answered (code : Byte) (result : Result) (data : List Byte) : Host.Outcome State Fault Refusal :=
      .next (s.respond ⟨source, tag, code, result, data⟩)
    let sectionByte (r : SectionRec) : Byte :=
      (match r.state with
       | .inactive => 0 | .blocked => 1 | .armed => 2 | .light => 3 | .tripped => 4) +
        (if r.maintenance then 64 else 0) + (if r.block then 128 else 0)
    let status : List Byte :=
      ([0x24, 0x40, 0x01,
       (match s.agent.mode with
        | .unconfigured => 0 | .protecting => 1),
       (match s.agent.state with
        | .idle => 0 | .validating => 1),
       (match s.loop.state with
        | .claiming => 1 | .loopClosed => 2 | .loopOpen => 3),
       (match s.loop.result with
        | .noResult => 0 | .matched => 1 | .mismatch _ => 2 | .unchecked => 3),
       (match s.loop.result with
        | .mismatch p => byte p | .noResult => 0 | .matched => 0 | .unchecked => 0),
       (match s.loop.breakPos with
        | none => 0 | some p => byte p),
       (match s.supply.cause with
        | .powerOn => 1 | .supplyDip => 2 | .pin => 3 | .soft => 4),
       (match s.store.state with
        | .invalid => 0 | .valid => 1 | .writing => 2 | .failed => 3),
       (match s.lens.state with
        | .idle => 0 | .starting => 1 | .measuring => 2)] : List Byte) ++
      (List.range 16).map (fun i => sectionByte (s.sectionRec i)) ++
      [if s.supply.low then 1 else 0, byte s.pool.tripChain.length, if s.pool.tripTruncated then 1 else 0,
       byte s.pool.generalChain.length, if s.pool.generalTruncated then 1 else 0, byte s.trip.orders.length,
       s.deviceTime.extractLsb' 24 8, s.deviceTime.extractLsb' 16 8, s.deviceTime.extractLsb' 8 8,
       s.deviceTime.extractLsb' 0 8]
    exec (.readStatus source tag []) s = answered 0x01 .ok status ∧ status.length = 38 ∧
    (s.agent.mode = .unconfigured → exec (.readChannel source tag [index]) s = answered 0x03 .unconfigured [] ∧
      exec (.readOrders source tag [index]) s = answered 0x04 .unconfigured []) ∧
    (s.agent.mode = .protecting →
      ((96 ≤ index.toNat ∨ s.tables.channelUsed index.toNat = false) →
        exec (.readChannel source tag [index]) s = answered 0x03 .badIndex []) ∧
      (∀ r, s.tables.channelUsed index.toNat = true → s.channel index.toNat = some r →
        exec (.readChannel source tag [index]) s = answered 0x03 .ok
          (wordBytes (BitVec.ofNat 16 (r.raw.getD 0)) ++ wordBytes (BitVec.ofNat 16 (r.comp.getD 0)) ++
            wordBytes (BitVec.ofNat 16 r.integ) ++ wordBytes (BitVec.ofNat 16 r.gain) ++
            [r.light.code, r.cond.code, flagByte r.flicker])) ∧
      (24 ≤ index.toNat → exec (.readOrders source tag [index]) s = answered 0x04 .badIndex []) ∧
      (index.toNat < 24 → exec (.readOrders source tag [index]) s = answered 0x04 .ok
        (byte s.trip.orders.length :: index ::
          ((s.trip.orders.drop index.toNat).take 12).flatMap fun o =>
            [byte o.breaker, byte o.state.code] ++ wordBytes o.causes ++ [byte o.depth] ++ word32Bytes o.issueTime ++
              wordBytes (BitVec.ofNat 16 (min 65535 (o.age / 10))) ++ [((s.position o.breaker).getD .unknown).code])))

/-- R171 and R184: READ_EVENTS copies the oldest records of a chain with its truncated marker, removes them, frees their slots
in order and clears the marker; the other chain stays. -/
def Obligations.eventReads : Prop :=
  ∀ (s : State) (source tag max : Byte), Takes s source → 1 ≤ max.toNat → max.toNat ≤ 8 →
    let p := s.pool
    let n := max.toNat
    let data (chain : List Slot) (truncated : Bool) : List Byte :=
      byte (min n chain.length) :: flagByte truncated :: (chain.take n).flatMap fun x => x.record.image
    exec (.readEvents source tag [0, max]) s = .next (({ s with pool := { p with
        tripChain := p.tripChain.drop n
        free := p.free ++ (p.tripChain.take n).map Slot.number
        tripTruncated := false } } : State).respond ⟨source, tag, 0x02, .ok, data p.tripChain p.tripTruncated⟩) ∧
    exec (.readEvents source tag [1, max]) s = .next (({ s with pool := { p with
        generalChain := p.generalChain.drop n
        free := p.free ++ (p.generalChain.take n).map Slot.number
        generalTruncated := false } } : State).respond ⟨source, tag, 0x02, .ok, data p.generalChain p.generalTruncated⟩)

/-! ## Event Pool -/

/-- R179, R181 to R183 and R194: the pool numbers every record it is handed, and places it, displaces the oldest GENERAL record for
it, or drops it; a record image is 8 to 17 bytes long, its fixed part first, and then the optional fields that it carries, in
their order. -/
def Obligations.recordsTaken : Prop :=
  (∀ (p : EventPool) (time : Word32) (b : RecordBody),
    let q := p.take time b
    let r : Record := ⟨p.nextSeq, time, b⟩
    q.nextSeq = p.nextSeq + 1 ∧
    (∀ n rest, p.free = n :: rest → q.free = rest ∧ q.tripTruncated = p.tripTruncated ∧
      q.generalTruncated = p.generalTruncated ∧
      (b.category = .trip → q.tripChain = p.tripChain ++ [⟨n, r⟩] ∧ q.generalChain = p.generalChain) ∧
      (b.category ≠ .trip → q.generalChain = p.generalChain ++ [⟨n, r⟩] ∧ q.tripChain = p.tripChain)) ∧
    (p.free = [] → q.free = [] ∧
      (b.category ≠ .trip → q.generalTruncated = true ∧ q.tripTruncated = p.tripTruncated ∧
        q.tripChain = p.tripChain ∧ q.generalChain = p.generalChain) ∧
      (b.category = .trip →
        (∀ oldest rest, p.generalChain = oldest :: rest → q.generalChain = rest ∧ q.generalTruncated = true ∧
          q.tripTruncated = p.tripTruncated ∧ q.tripChain = p.tripChain ++ [⟨oldest.number, r⟩]) ∧
        (p.generalChain = [] → q.tripTruncated = true ∧ q.tripChain = p.tripChain ∧ q.generalChain = [] ∧
          q.generalTruncated = p.generalTruncated)))) ∧
  (∀ r : Record,
    let kind : Byte := match r.body.kind with
      | .sectionTripped => 0x01 | .sectionReleased => 0x02 | .orderIssued => 0x03 | .orderOpened => 0x04
      | .orderReissued => 0x05 | .orderFailed => 0x06 | .escalationExhausted => 0x07 | .nodeStale => 0x10 | .nodeLive => 0x11
      | .nodeResync => 0x12 | .loopState => 0x13 | .claimResult => 0x14 | .lightPersistent => 0x15
      | .lightUnconfirmable => 0x16 | .maintenanceChange => 0x17 | .blockChange => 0x18 | .flickerOn => 0x19
      | .flickerOff => 0x1A | .positionChange => 0x1B | .lensResult => 0x1C | .tablesActivated => 0x1D
      | .storeResult => 0x1E | .supplyLow => 0x1F | .supplyOk => 0x20 | .reset => 0x21
    let category : Nat := match r.body.category with
      | .trip => 0 | .alarm => 1 | .notice => 2
    let optional (field : Option Nat) : List Byte := match field with
      | some x => [BitVec.ofNat 8 x]
      | none => []
    let big4 (w : Word32) : List Byte := [w.extractLsb' 24 8, w.extractLsb' 16 8, w.extractLsb' 8 8, w.extractLsb' 0 8]
    8 ≤ r.image.length ∧ r.image.length ≤ 17 ∧
    ∃ marks : Byte,
      r.image = [r.seq.extractLsb' 8 8, r.seq.extractLsb' 0 8] ++ big4 r.time ++ [kind, marks] ++
        optional r.body.sect ++ optional r.body.channel ++ optional r.body.point ++ optional r.body.breaker ++
        optional r.body.node ++ (match r.body.value with
          | some v => big4 v
          | none => []) ∧
      (marks.extractLsb' 0 2).toNat = category ∧ marks.getLsbD 2 = r.body.sect.isSome ∧
      marks.getLsbD 3 = r.body.channel.isSome ∧ marks.getLsbD 4 = r.body.point.isSome ∧
      marks.getLsbD 5 = r.body.breaker.isSome ∧ marks.getLsbD 6 = r.body.node.isSome ∧
      marks.getLsbD 7 = r.body.value.isSome) ∧
  ∀ v1 v0 : Byte, (value2 v1.toNat v0.toNat).extractLsb' 8 8 = v1 ∧ (value2 v1.toNat v0.toNat).extractLsb' 0 8 = v0 ∧
    (value2 v1.toNat v0.toNat).extractLsb' 16 16 = 0

/-! ## Setting Store, supply, resets and SYSOK -/

/-- R188 and R189: the end of a store write, and the crossings of the warning levels. -/
def Obligations.storeAndWarnings : Prop :=
  ∀ s : State, Up s →
    (s.store.state = .writing →
      exec (.storeWriteComplete true) s = .next (({ s with store := ⟨.valid, true, s.store.image⟩ } : State).record
        { kind := .storeResult, category := .notice, value := some 1 }) ∧
      exec (.storeWriteComplete false) s = .next (({ s with store := ⟨.failed, false, s.store.image⟩ } : State).record
        { kind := .storeResult, category := .alarm, value := some 2 })) ∧
    (s.supply.low = false →
      exec .supplyWarningFall s = .next (({ s with supply := { s.supply with low := true } } : State).record
        { kind := .supplyLow, category := .alarm, value := some 2950 }) ∧ exec .supplyWarningRise s = .next s) ∧
    (s.supply.low = true →
      exec .supplyWarningRise s = .next (({ s with supply := { s.supply with low := false } } : State).record
        { kind := .supplyOk, category := .notice, value := some 3050 }) ∧ exec .supplyWarningFall s = .next s)

/-- R190 and R128: a hard reset begins at a supply dip or at RESETN low, cuts off the output, empties the queues and the active
trip list and makes every trip line inactive; it lasts until it ends. The model's choices: that every command but its own events
has no effect during a reset, and that the other fields stand until its end (log entry 6); that SUPPLY_BELOW_RETENTION outside a
reset begins one, and that HARD_RESET_END carries the supply level (log entry 15). -/
def Obligations.hardResetBegins : Prop :=
  ∀ s : State,
    let begun (dipped below : Bool) : State := { s with
      hardReset := some ⟨dipped, below⟩
      loop := { s.loop with sending := none, tripQ := [], controlQ := [], routineQ := [] }
      trip := { s.trip with orders := [], lines := Vector.replicate _ ⟨false, .stopped⟩ } }
    (Up s → exec .supplyDipReset s = .next (begun true false) ∧ exec .resetnLow s = .next (begun false false) ∧
      exec .supplyBelowRetention s = .next (begun true true)) ∧
    ∀ dipped below, s.hardReset = some ⟨dipped, below⟩ →
      exec .supplyDipReset s = .next { s with hardReset := some ⟨true, below⟩ } ∧
      exec .resetnLow s = .next s ∧
      exec .supplyBelowRetention s = .next { s with hardReset := some ⟨true, true⟩ } ∧
      (∀ mv, mv ≤ 2700 → exec (.hardResetEnd mv) s = .next s) ∧
      ∀ c : Instr, c ≠ .supplyDipReset → c ≠ .supplyBelowRetention → (∀ mv, c ≠ .hardResetEnd mv) →
        exec c s = .next s

/-- R6, R29, R44, R69, R81, R105, R133, R148, R166, R180, R185, R187 and R190: the part at the end of a hard reset. -/
def Obligations.hardResetEnds : Prop :=
  ∀ (s : State) (dipped below : Bool) (mv : Nat), s.hardReset = some ⟨dipped, below⟩ → 2700 < mv →
    let cause : ResetCause := if below then .powerOn else if dipped then .supplyDip else .pin
    let set : Tables := if s.store.marker then s.store.image else .empty
    let resetRec : RecordBody := { kind := .reset, category := .notice, value := some (value2 0 cause.code) }
    let lowRec : RecordBody := { kind := .supplyLow, category := .alarm, value := some 2950 }
    ∃ t, exec (.hardResetEnd mv) s = .next t ∧ t.hardReset = none ∧ t.deviceTime = 0 ∧
      t.agent = ⟨if s.store.marker then .protecting else .unconfigured, set, set, .idle, none, false, [], false⟩ ∧
      t.store = ⟨if s.store.marker then .valid else .invalid, s.store.marker, s.store.image⟩ ∧
      t.supply = ⟨mv ≤ 3050, cause⟩ ∧
      t.pool.tripChain = [] ∧ t.pool.tripTruncated = false ∧ t.pool.generalTruncated = false ∧
      t.pool.generalChain = ⟨0, ⟨0, 0, resetRec⟩⟩ :: (if mv ≤ 3050 then [⟨1, ⟨1, 0, lowRec⟩⟩] else []) ∧
      t.loop = { LoopPort.reset with
        outstanding := some 0, outSeq := 1, sending := some ⟨.control .claim, 0⟩ } ∧
      t.lens = .reset ∧ t.trip.orders = [] ∧ (∀ l, t.line l = ⟨false, .stopped⟩) ∧
      (∀ n, n < 48 → t.node n = if set.nodeUsed n then some ⟨.absent, none, .stopped⟩ else none) ∧
      (∀ c, c < 96 → t.channel c = if set.channelUsed c then some (.fresh (set.channel c) .noData) else none) ∧
      (∀ p, p < 24 → t.point p = if set.pointUsed p then some ⟨0, .noData⟩ else none) ∧
      (∀ b, b < 24 → t.position b = if set.breakerUsed b then some .unknown else none) ∧
      ∀ i, i < 16 → t.sectionRec i = ⟨if t.sectionInactive i then .inactive else .armed, false, false, .stopped, false,
        false⟩

/-- R26, R82, R129, R148 and R176 to R178: SOFT_RESET is answered OK and becomes pending, and takes effect at the end of the sending
of that answer and at no other moment; what it keeps and what it clears. -/
def Obligations.softReset : Prop :=
  (∀ (s : State) (x : Sending) (r : Response), Up s → s.agent.softResetPending = true → s.loop.sending = some x →
    x.frame = .response r → r.code = 0x31 → r.result = .ok →
    ∃ t, exec .softResetTakesEffect s = .next t ∧
      t.trip.orders = s.trip.orders.map (fun o => { o with waiting := false }) ∧ t.trip.lines = s.trip.lines ∧
      t.store = s.store ∧ t.deviceTime = s.deviceTime ∧ t.supply = { s.supply with cause := .soft } ∧
      t.agent = ⟨s.agent.mode, s.agent.active, s.agent.active, .idle, none, false, [], false⟩ ∧
      t.pool = s.pool.take s.deviceTime { kind := .reset, category := .notice, value := some 4 } ∧
      t.loop = { LoopPort.reset with
        outstanding := some s.loop.outSeq, outSeq := s.loop.outSeq + 1, sending := some ⟨.control .claim, s.loop.outSeq⟩ } ∧
      t.lens = .reset ∧
      (∀ i, i < 16 → (s.sectionRec i).state = .tripped → t.sectionRec i = s.sectionRec i) ∧
      (∀ i, i < 16 → (s.sectionRec i).state ≠ .tripped → t.sectionRec i =
        ⟨if s.sectionInactive i then .inactive else if (s.sectionRec i).block then .blocked else .armed,
          (s.sectionRec i).maintenance, (s.sectionRec i).block, .stopped, false, false⟩) ∧
      (∀ n, n < 48 → t.node n = if s.tables.nodeUsed n then some ⟨.absent, none, .stopped⟩ else none) ∧
      (∀ c, c < 96 → t.channel c =
        if s.tables.channelUsed c then some (.fresh (s.tables.channel c) .noData) else none) ∧
      (∀ p, p < 24 → t.point p = if s.tables.pointUsed p then some ⟨0, .noData⟩ else none) ∧
      ∀ b, b < 24 → t.position b = if s.tables.breakerUsed b then some .unknown else none) ∧
  ∀ s : State,
    (∀ source tag, Takes s source → exec (.softReset source tag []) s = .next (({ s with agent := { s.agent with
      softResetPending := true } } : State).respond ⟨source, tag, 0x31, .ok, []⟩)) ∧
    (Up s → s.agent.softResetPending = false → exec .softResetTakesEffect s = .next s) ∧
    ∀ x r, Up s → s.agent.softResetPending = true → s.loop.sending = some x → x.frame = .response r → r.code = 0x31 →
      r.result = .ok → exec .sendingComplete s = exec .softResetTakesEffect s

/-- R191 and R190: SYSOK is active while its five conditions hold, outside a hard reset. -/
def Obligations.sysokConditions : Prop :=
  ∀ s : State, s.sysok = true ↔
    Up s ∧ s.agent.mode = .protecting ∧ s.loop.state = .loopClosed ∧ s.loop.result = .matched ∧
      (∀ i, i < 48 → s.tables.nodeUsed i = true → s.nodeLive i = true) ∧
      (∀ i, i < 16 → (s.sectionRec i).state ≠ .blocked) ∧ s.supply.low = false

/-! ## Invariants that every step keeps -/

/-- The invariants below hold in the reset state that the model chooses (log entry 1). -/
def Obligations.resetMeetsInvariants : Prop :=
  PoolPartitioned .reset ∧ QueuesBounded .reset ∧ TablesValidated .reset ∧ LightBounded .reset ∧
  RecordsMatchTables .reset ∧ ViewCurrent .reset ∧ EligibleIsLit .reset ∧ InactiveAsTabled .reset ∧
  DecisionsCurrent .reset ∧ QuietWhileUndisturbed .reset ∧ OneOrderPerBreaker .reset ∧ CausesTripped .reset ∧
  DepthsBounded .reset ∧ LinesFollowOrders .reset ∧ WaitingCopies .reset ∧ CutOrdersFailed .reset ∧
  CutNotQueued .reset ∧ CutSetCurrent .reset ∧ LoopTimersInState .reset ∧ PersistenceInLight .reset ∧
  OrderTimersInState .reset ∧ NodeTimersInState .reset ∧ OneTest .reset ∧ ExchangeBounded .reset

/-- R180: every step keeps each of the 64 slots in exactly one of the two chains and the free list. -/
def Obligations.stepKeepsPoolPartitioned : Prop :=
  ∀ s t : State, PoolPartitioned s → step s = .next t → PoolPartitioned t

/-- R22 and R23: every step keeps the queues within their capacities, and empty behind an idle output. -/
def Obligations.stepKeepsQueuesBounded : Prop :=
  ∀ s t : State, QueuesBounded s → step s = .next t → QueuesBounded t

/-- R47: every step keeps the integrator, compensated level and live gain of every channel within their bounds, with validated
tables. -/
def Obligations.stepKeepsLightBounded : Prop :=
  ∀ s t : State, LightBounded s → TablesValidated s → step s = .next t → LightBounded t ∧ TablesValidated t

/-- R43, R51, R68, R75, R80 and R105: every step keeps records for exactly the in-use entries, and the Section Evaluator's view
equal to them. -/
def Obligations.stepKeepsRecordsAndView : Prop :=
  ∀ s t : State, RecordsMatchTables s → ViewCurrent s → step s = .next t → RecordsMatchTables t ∧ ViewCurrent t

/-- R59, R87, R88 and R93: after every step no trip is owed: an ARMED or LIGHT section has a false trip condition, and it is LIGHT
exactly when some contributing channel is LIT. The trip condition, the contributing channels and the INACTIVE sections are those
that `tripDecision` spells out. -/
def Obligations.stepKeepsDecisionsCurrent : Prop :=
  ∀ s t : State, DecisionsCurrent s → EligibleIsLit s → InactiveAsTabled s → step s = .next t →
    DecisionsCurrent t ∧ EligibleIsLit t ∧ InactiveAsTabled t

/-- R108, R109, R111 and R159: every step keeps at most one order on a breaker, its depth at 2 or less, and a cause set that is
not empty and holds TRIPPED sections alone. -/
def Obligations.stepKeepsOrders : Prop :=
  ∀ s t : State, OneOrderPerBreaker s → CausesTripped s → DepthsBounded s → QuietWhileUndisturbed s →
    step s = .next t →
    OneOrderPerBreaker t ∧ CausesTripped t ∧ DepthsBounded t ∧ QuietWhileUndisturbed t

/-- R124: every step keeps a trip line active exactly while an order is held on it or its minimum-pulse timer runs. -/
def Obligations.stepKeepsTripLines : Prop :=
  ∀ s t : State, LinesFollowOrders s → OneOrderPerBreaker s → QuietWhileUndisturbed s → step s = .next t →
    LinesFollowOrders t ∧ OneOrderPerBreaker t ∧ QuietWhileUndisturbed t

/-- R22, R23, R25 and R114: every step keeps at most one TRIP frame queued for a breaker, and one for exactly those whose order
has a waiting copy. -/
def Obligations.stepKeepsWaitingCopies : Prop :=
  ∀ s t : State, WaitingCopies s → OneOrderPerBreaker s → step s = .next t → WaitingCopies t ∧ OneOrderPerBreaker t

/-- R20, R21 and R122: every step keeps the break position and the cut set those of the live states, leaves no TRIP frame queued
for a cut breaker, and no ISSUED order on a cut breaker without a trip line. -/
def Obligations.stepKeepsCutBreakers : Prop :=
  ∀ s t : State, CutSetCurrent s → CutNotQueued s → CutOrdersFailed s → OneOrderPerBreaker s →
    QuietWhileUndisturbed s → step s = .next t →
    CutSetCurrent t ∧ CutNotQueued t ∧ CutOrdersFailed t ∧ OneOrderPerBreaker t ∧ QuietWhileUndisturbed t

/-- R7 to R17, R31, R32, R94, R115, R116 and R121: every step keeps one claim under way in CLAIMING and none otherwise, and every
timer of the Loop Port, the sections, the orders and the nodes running in its states alone. -/
def Obligations.stepKeepsTimersInState : Prop :=
  ∀ s t : State, LoopTimersInState s → PersistenceInLight s → OrderTimersInState s → NodeTimersInState s →
    OneOrderPerBreaker s → step s = .next t →
    LoopTimersInState t ∧ PersistenceInLight t ∧ OrderTimersInState t ∧ NodeTimersInState t ∧ OneOrderPerBreaker t

/-- R133, R135, R139, R142, R145, R148 and R166: every step keeps at most one channel TESTING, the channel under test; at most two
responses held; and a pending activation exactly while VALIDATING. -/
def Obligations.stepKeepsTestAndExchange : Prop :=
  (∀ s t : State, OneTest s → QuietWhileUndisturbed s → step s = .next t → OneTest t ∧ QuietWhileUndisturbed t) ∧
  ∀ s t : State, ExchangeBounded s → step s = .next t → ExchangeBounded t

end
end

