-- ==== Sys2Proof/Laws/State.lean ====
section
/-! SUPPORT. What each update of State leaves of each field: one lemma for each field and update, true by `rfl`; and what the
readers of State give after an update. -/

namespace Sys2Proof.Machine

@[simp] theorem State.setNode_loop (s : State) (i : Nat) (r : NodeRec) : (s.setNode i r).loop = s.loop := rfl
@[simp] theorem State.setNode_channels (s : State) (i : Nat) (r : NodeRec) : (s.setNode i r).channels = s.channels := rfl
@[simp] theorem State.setNode_points (s : State) (i : Nat) (r : NodeRec) : (s.setNode i r).points = s.points := rfl
@[simp] theorem State.setNode_sections (s : State) (i : Nat) (r : NodeRec) : (s.setNode i r).sections = s.sections := rfl
@[simp] theorem State.setNode_trip (s : State) (i : Nat) (r : NodeRec) : (s.setNode i r).trip = s.trip := rfl
@[simp] theorem State.setNode_lens (s : State) (i : Nat) (r : NodeRec) : (s.setNode i r).lens = s.lens := rfl
@[simp] theorem State.setNode_pool (s : State) (i : Nat) (r : NodeRec) : (s.setNode i r).pool = s.pool := rfl
@[simp] theorem State.setNode_agent (s : State) (i : Nat) (r : NodeRec) : (s.setNode i r).agent = s.agent := rfl
@[simp] theorem State.setNode_store (s : State) (i : Nat) (r : NodeRec) : (s.setNode i r).store = s.store := rfl
@[simp] theorem State.setNode_supply (s : State) (i : Nat) (r : NodeRec) : (s.setNode i r).supply = s.supply := rfl
@[simp] theorem State.setNode_deviceTime (s : State) (i : Nat) (r : NodeRec) : (s.setNode i r).deviceTime = s.deviceTime := rfl
@[simp] theorem State.setNode_hardReset (s : State) (i : Nat) (r : NodeRec) : (s.setNode i r).hardReset = s.hardReset := rfl
@[simp] theorem State.setNode_draws (s : State) (i : Nat) (r : NodeRec) : (s.setNode i r).draws = s.draws := rfl
@[simp] theorem State.setNode_pending (s : State) (i : Nat) (r : NodeRec) : (s.setNode i r).pending = s.pending := rfl
@[simp] theorem State.setChannel_loop (s : State) (i : Nat) (r : ChannelRec) : (s.setChannel i r).loop = s.loop := rfl
@[simp] theorem State.setChannel_nodes (s : State) (i : Nat) (r : ChannelRec) : (s.setChannel i r).nodes = s.nodes := rfl
@[simp] theorem State.setChannel_points (s : State) (i : Nat) (r : ChannelRec) : (s.setChannel i r).points = s.points := rfl
@[simp] theorem State.setChannel_sections (s : State) (i : Nat) (r : ChannelRec) : (s.setChannel i r).sections = s.sections := rfl
@[simp] theorem State.setChannel_trip (s : State) (i : Nat) (r : ChannelRec) : (s.setChannel i r).trip = s.trip := rfl
@[simp] theorem State.setChannel_lens (s : State) (i : Nat) (r : ChannelRec) : (s.setChannel i r).lens = s.lens := rfl
@[simp] theorem State.setChannel_pool (s : State) (i : Nat) (r : ChannelRec) : (s.setChannel i r).pool = s.pool := rfl
@[simp] theorem State.setChannel_agent (s : State) (i : Nat) (r : ChannelRec) : (s.setChannel i r).agent = s.agent := rfl
@[simp] theorem State.setChannel_store (s : State) (i : Nat) (r : ChannelRec) : (s.setChannel i r).store = s.store := rfl
@[simp] theorem State.setChannel_supply (s : State) (i : Nat) (r : ChannelRec) : (s.setChannel i r).supply = s.supply := rfl
@[simp] theorem State.setChannel_deviceTime (s : State) (i : Nat) (r : ChannelRec) : (s.setChannel i r).deviceTime = s.deviceTime := rfl
@[simp] theorem State.setChannel_hardReset (s : State) (i : Nat) (r : ChannelRec) : (s.setChannel i r).hardReset = s.hardReset := rfl
@[simp] theorem State.setChannel_draws (s : State) (i : Nat) (r : ChannelRec) : (s.setChannel i r).draws = s.draws := rfl
@[simp] theorem State.setChannel_pending (s : State) (i : Nat) (r : ChannelRec) : (s.setChannel i r).pending = s.pending := rfl
@[simp] theorem State.setPoint_loop (s : State) (i : Nat) (r : PointRec) : (s.setPoint i r).loop = s.loop := rfl
@[simp] theorem State.setPoint_nodes (s : State) (i : Nat) (r : PointRec) : (s.setPoint i r).nodes = s.nodes := rfl
@[simp] theorem State.setPoint_channels (s : State) (i : Nat) (r : PointRec) : (s.setPoint i r).channels = s.channels := rfl
@[simp] theorem State.setPoint_sections (s : State) (i : Nat) (r : PointRec) : (s.setPoint i r).sections = s.sections := rfl
@[simp] theorem State.setPoint_trip (s : State) (i : Nat) (r : PointRec) : (s.setPoint i r).trip = s.trip := rfl
@[simp] theorem State.setPoint_lens (s : State) (i : Nat) (r : PointRec) : (s.setPoint i r).lens = s.lens := rfl
@[simp] theorem State.setPoint_pool (s : State) (i : Nat) (r : PointRec) : (s.setPoint i r).pool = s.pool := rfl
@[simp] theorem State.setPoint_agent (s : State) (i : Nat) (r : PointRec) : (s.setPoint i r).agent = s.agent := rfl
@[simp] theorem State.setPoint_store (s : State) (i : Nat) (r : PointRec) : (s.setPoint i r).store = s.store := rfl
@[simp] theorem State.setPoint_supply (s : State) (i : Nat) (r : PointRec) : (s.setPoint i r).supply = s.supply := rfl
@[simp] theorem State.setPoint_deviceTime (s : State) (i : Nat) (r : PointRec) : (s.setPoint i r).deviceTime = s.deviceTime := rfl
@[simp] theorem State.setPoint_hardReset (s : State) (i : Nat) (r : PointRec) : (s.setPoint i r).hardReset = s.hardReset := rfl
@[simp] theorem State.setPoint_draws (s : State) (i : Nat) (r : PointRec) : (s.setPoint i r).draws = s.draws := rfl
@[simp] theorem State.setPoint_pending (s : State) (i : Nat) (r : PointRec) : (s.setPoint i r).pending = s.pending := rfl
@[simp] theorem State.setPosition_loop (s : State) (b : Nat) (p : Position) : (s.setPosition b p).loop = s.loop := rfl
@[simp] theorem State.setPosition_nodes (s : State) (b : Nat) (p : Position) : (s.setPosition b p).nodes = s.nodes := rfl
@[simp] theorem State.setPosition_channels (s : State) (b : Nat) (p : Position) : (s.setPosition b p).channels = s.channels := rfl
@[simp] theorem State.setPosition_points (s : State) (b : Nat) (p : Position) : (s.setPosition b p).points = s.points := rfl
@[simp] theorem State.setPosition_sections (s : State) (b : Nat) (p : Position) : (s.setPosition b p).sections = s.sections := rfl
@[simp] theorem State.setPosition_lens (s : State) (b : Nat) (p : Position) : (s.setPosition b p).lens = s.lens := rfl
@[simp] theorem State.setPosition_pool (s : State) (b : Nat) (p : Position) : (s.setPosition b p).pool = s.pool := rfl
@[simp] theorem State.setPosition_agent (s : State) (b : Nat) (p : Position) : (s.setPosition b p).agent = s.agent := rfl
@[simp] theorem State.setPosition_store (s : State) (b : Nat) (p : Position) : (s.setPosition b p).store = s.store := rfl
@[simp] theorem State.setPosition_supply (s : State) (b : Nat) (p : Position) : (s.setPosition b p).supply = s.supply := rfl
@[simp] theorem State.setPosition_deviceTime (s : State) (b : Nat) (p : Position) : (s.setPosition b p).deviceTime = s.deviceTime := rfl
@[simp] theorem State.setPosition_hardReset (s : State) (b : Nat) (p : Position) : (s.setPosition b p).hardReset = s.hardReset := rfl
@[simp] theorem State.setPosition_draws (s : State) (b : Nat) (p : Position) : (s.setPosition b p).draws = s.draws := rfl
@[simp] theorem State.setPosition_pending (s : State) (b : Nat) (p : Position) : (s.setPosition b p).pending = s.pending := rfl
@[simp] theorem State.setSection_loop (s : State) (i : Nat) (r : SectionRec) : (s.setSection i r).loop = s.loop := rfl
@[simp] theorem State.setSection_nodes (s : State) (i : Nat) (r : SectionRec) : (s.setSection i r).nodes = s.nodes := rfl
@[simp] theorem State.setSection_channels (s : State) (i : Nat) (r : SectionRec) : (s.setSection i r).channels = s.channels := rfl
@[simp] theorem State.setSection_points (s : State) (i : Nat) (r : SectionRec) : (s.setSection i r).points = s.points := rfl
@[simp] theorem State.setSection_trip (s : State) (i : Nat) (r : SectionRec) : (s.setSection i r).trip = s.trip := rfl
@[simp] theorem State.setSection_lens (s : State) (i : Nat) (r : SectionRec) : (s.setSection i r).lens = s.lens := rfl
@[simp] theorem State.setSection_pool (s : State) (i : Nat) (r : SectionRec) : (s.setSection i r).pool = s.pool := rfl
@[simp] theorem State.setSection_agent (s : State) (i : Nat) (r : SectionRec) : (s.setSection i r).agent = s.agent := rfl
@[simp] theorem State.setSection_store (s : State) (i : Nat) (r : SectionRec) : (s.setSection i r).store = s.store := rfl
@[simp] theorem State.setSection_supply (s : State) (i : Nat) (r : SectionRec) : (s.setSection i r).supply = s.supply := rfl
@[simp] theorem State.setSection_deviceTime (s : State) (i : Nat) (r : SectionRec) : (s.setSection i r).deviceTime = s.deviceTime := rfl
@[simp] theorem State.setSection_hardReset (s : State) (i : Nat) (r : SectionRec) : (s.setSection i r).hardReset = s.hardReset := rfl
@[simp] theorem State.setSection_draws (s : State) (i : Nat) (r : SectionRec) : (s.setSection i r).draws = s.draws := rfl
@[simp] theorem State.setSection_pending (s : State) (i : Nat) (r : SectionRec) : (s.setSection i r).pending = s.pending := rfl
@[simp] theorem State.setLine_loop (s : State) (l : Nat) (x : TripLine) : (s.setLine l x).loop = s.loop := rfl
@[simp] theorem State.setLine_nodes (s : State) (l : Nat) (x : TripLine) : (s.setLine l x).nodes = s.nodes := rfl
@[simp] theorem State.setLine_channels (s : State) (l : Nat) (x : TripLine) : (s.setLine l x).channels = s.channels := rfl
@[simp] theorem State.setLine_points (s : State) (l : Nat) (x : TripLine) : (s.setLine l x).points = s.points := rfl
@[simp] theorem State.setLine_sections (s : State) (l : Nat) (x : TripLine) : (s.setLine l x).sections = s.sections := rfl
@[simp] theorem State.setLine_lens (s : State) (l : Nat) (x : TripLine) : (s.setLine l x).lens = s.lens := rfl
@[simp] theorem State.setLine_pool (s : State) (l : Nat) (x : TripLine) : (s.setLine l x).pool = s.pool := rfl
@[simp] theorem State.setLine_agent (s : State) (l : Nat) (x : TripLine) : (s.setLine l x).agent = s.agent := rfl
@[simp] theorem State.setLine_store (s : State) (l : Nat) (x : TripLine) : (s.setLine l x).store = s.store := rfl
@[simp] theorem State.setLine_supply (s : State) (l : Nat) (x : TripLine) : (s.setLine l x).supply = s.supply := rfl
@[simp] theorem State.setLine_deviceTime (s : State) (l : Nat) (x : TripLine) : (s.setLine l x).deviceTime = s.deviceTime := rfl
@[simp] theorem State.setLine_hardReset (s : State) (l : Nat) (x : TripLine) : (s.setLine l x).hardReset = s.hardReset := rfl
@[simp] theorem State.setLine_draws (s : State) (l : Nat) (x : TripLine) : (s.setLine l x).draws = s.draws := rfl
@[simp] theorem State.setLine_pending (s : State) (l : Nat) (x : TripLine) : (s.setLine l x).pending = s.pending := rfl
@[simp] theorem State.setChannelView_loop (s : State) (i : Nat) (v : ChannelView) : (s.setChannelView i v).loop = s.loop := rfl
@[simp] theorem State.setChannelView_nodes (s : State) (i : Nat) (v : ChannelView) : (s.setChannelView i v).nodes = s.nodes := rfl
@[simp] theorem State.setChannelView_channels (s : State) (i : Nat) (v : ChannelView) : (s.setChannelView i v).channels = s.channels := rfl
@[simp] theorem State.setChannelView_points (s : State) (i : Nat) (v : ChannelView) : (s.setChannelView i v).points = s.points := rfl
@[simp] theorem State.setChannelView_trip (s : State) (i : Nat) (v : ChannelView) : (s.setChannelView i v).trip = s.trip := rfl
@[simp] theorem State.setChannelView_lens (s : State) (i : Nat) (v : ChannelView) : (s.setChannelView i v).lens = s.lens := rfl
@[simp] theorem State.setChannelView_pool (s : State) (i : Nat) (v : ChannelView) : (s.setChannelView i v).pool = s.pool := rfl
@[simp] theorem State.setChannelView_agent (s : State) (i : Nat) (v : ChannelView) : (s.setChannelView i v).agent = s.agent := rfl
@[simp] theorem State.setChannelView_store (s : State) (i : Nat) (v : ChannelView) : (s.setChannelView i v).store = s.store := rfl
@[simp] theorem State.setChannelView_supply (s : State) (i : Nat) (v : ChannelView) : (s.setChannelView i v).supply = s.supply := rfl
@[simp] theorem State.setChannelView_deviceTime (s : State) (i : Nat) (v : ChannelView) : (s.setChannelView i v).deviceTime = s.deviceTime := rfl
@[simp] theorem State.setChannelView_hardReset (s : State) (i : Nat) (v : ChannelView) : (s.setChannelView i v).hardReset = s.hardReset := rfl
@[simp] theorem State.setChannelView_draws (s : State) (i : Nat) (v : ChannelView) : (s.setChannelView i v).draws = s.draws := rfl
@[simp] theorem State.setChannelView_pending (s : State) (i : Nat) (v : ChannelView) : (s.setChannelView i v).pending = s.pending := rfl
@[simp] theorem State.setPointView_loop (s : State) (i : Nat) (v : PointView) : (s.setPointView i v).loop = s.loop := rfl
@[simp] theorem State.setPointView_nodes (s : State) (i : Nat) (v : PointView) : (s.setPointView i v).nodes = s.nodes := rfl
@[simp] theorem State.setPointView_channels (s : State) (i : Nat) (v : PointView) : (s.setPointView i v).channels = s.channels := rfl
@[simp] theorem State.setPointView_points (s : State) (i : Nat) (v : PointView) : (s.setPointView i v).points = s.points := rfl
@[simp] theorem State.setPointView_trip (s : State) (i : Nat) (v : PointView) : (s.setPointView i v).trip = s.trip := rfl
@[simp] theorem State.setPointView_lens (s : State) (i : Nat) (v : PointView) : (s.setPointView i v).lens = s.lens := rfl
@[simp] theorem State.setPointView_pool (s : State) (i : Nat) (v : PointView) : (s.setPointView i v).pool = s.pool := rfl
@[simp] theorem State.setPointView_agent (s : State) (i : Nat) (v : PointView) : (s.setPointView i v).agent = s.agent := rfl
@[simp] theorem State.setPointView_store (s : State) (i : Nat) (v : PointView) : (s.setPointView i v).store = s.store := rfl
@[simp] theorem State.setPointView_supply (s : State) (i : Nat) (v : PointView) : (s.setPointView i v).supply = s.supply := rfl
@[simp] theorem State.setPointView_deviceTime (s : State) (i : Nat) (v : PointView) : (s.setPointView i v).deviceTime = s.deviceTime := rfl
@[simp] theorem State.setPointView_hardReset (s : State) (i : Nat) (v : PointView) : (s.setPointView i v).hardReset = s.hardReset := rfl
@[simp] theorem State.setPointView_draws (s : State) (i : Nat) (v : PointView) : (s.setPointView i v).draws = s.draws := rfl
@[simp] theorem State.setPointView_pending (s : State) (i : Nat) (v : PointView) : (s.setPointView i v).pending = s.pending := rfl
@[simp] theorem State.setLoop_nodes (s : State) (l : LoopPort) : (s.setLoop l).nodes = s.nodes := rfl
@[simp] theorem State.setLoop_channels (s : State) (l : LoopPort) : (s.setLoop l).channels = s.channels := rfl
@[simp] theorem State.setLoop_points (s : State) (l : LoopPort) : (s.setLoop l).points = s.points := rfl
@[simp] theorem State.setLoop_sections (s : State) (l : LoopPort) : (s.setLoop l).sections = s.sections := rfl
@[simp] theorem State.setLoop_trip (s : State) (l : LoopPort) : (s.setLoop l).trip = s.trip := rfl
@[simp] theorem State.setLoop_lens (s : State) (l : LoopPort) : (s.setLoop l).lens = s.lens := rfl
@[simp] theorem State.setLoop_pool (s : State) (l : LoopPort) : (s.setLoop l).pool = s.pool := rfl
@[simp] theorem State.setLoop_agent (s : State) (l : LoopPort) : (s.setLoop l).agent = s.agent := rfl
@[simp] theorem State.setLoop_store (s : State) (l : LoopPort) : (s.setLoop l).store = s.store := rfl
@[simp] theorem State.setLoop_supply (s : State) (l : LoopPort) : (s.setLoop l).supply = s.supply := rfl
@[simp] theorem State.setLoop_deviceTime (s : State) (l : LoopPort) : (s.setLoop l).deviceTime = s.deviceTime := rfl
@[simp] theorem State.setLoop_hardReset (s : State) (l : LoopPort) : (s.setLoop l).hardReset = s.hardReset := rfl
@[simp] theorem State.setLoop_draws (s : State) (l : LoopPort) : (s.setLoop l).draws = s.draws := rfl
@[simp] theorem State.setLoop_pending (s : State) (l : LoopPort) : (s.setLoop l).pending = s.pending := rfl
@[simp] theorem State.setOrders_loop (s : State) (os : List Order) : (s.setOrders os).loop = s.loop := rfl
@[simp] theorem State.setOrders_nodes (s : State) (os : List Order) : (s.setOrders os).nodes = s.nodes := rfl
@[simp] theorem State.setOrders_channels (s : State) (os : List Order) : (s.setOrders os).channels = s.channels := rfl
@[simp] theorem State.setOrders_points (s : State) (os : List Order) : (s.setOrders os).points = s.points := rfl
@[simp] theorem State.setOrders_sections (s : State) (os : List Order) : (s.setOrders os).sections = s.sections := rfl
@[simp] theorem State.setOrders_lens (s : State) (os : List Order) : (s.setOrders os).lens = s.lens := rfl
@[simp] theorem State.setOrders_pool (s : State) (os : List Order) : (s.setOrders os).pool = s.pool := rfl
@[simp] theorem State.setOrders_agent (s : State) (os : List Order) : (s.setOrders os).agent = s.agent := rfl
@[simp] theorem State.setOrders_store (s : State) (os : List Order) : (s.setOrders os).store = s.store := rfl
@[simp] theorem State.setOrders_supply (s : State) (os : List Order) : (s.setOrders os).supply = s.supply := rfl
@[simp] theorem State.setOrders_deviceTime (s : State) (os : List Order) : (s.setOrders os).deviceTime = s.deviceTime := rfl
@[simp] theorem State.setOrders_hardReset (s : State) (os : List Order) : (s.setOrders os).hardReset = s.hardReset := rfl
@[simp] theorem State.setOrders_draws (s : State) (os : List Order) : (s.setOrders os).draws = s.draws := rfl
@[simp] theorem State.setOrders_pending (s : State) (os : List Order) : (s.setOrders os).pending = s.pending := rfl
@[simp] theorem State.setLens_loop (s : State) (l : LensEngine) : (s.setLens l).loop = s.loop := rfl
@[simp] theorem State.setLens_nodes (s : State) (l : LensEngine) : (s.setLens l).nodes = s.nodes := rfl
@[simp] theorem State.setLens_channels (s : State) (l : LensEngine) : (s.setLens l).channels = s.channels := rfl
@[simp] theorem State.setLens_points (s : State) (l : LensEngine) : (s.setLens l).points = s.points := rfl
@[simp] theorem State.setLens_sections (s : State) (l : LensEngine) : (s.setLens l).sections = s.sections := rfl
@[simp] theorem State.setLens_trip (s : State) (l : LensEngine) : (s.setLens l).trip = s.trip := rfl
@[simp] theorem State.setLens_pool (s : State) (l : LensEngine) : (s.setLens l).pool = s.pool := rfl
@[simp] theorem State.setLens_agent (s : State) (l : LensEngine) : (s.setLens l).agent = s.agent := rfl
@[simp] theorem State.setLens_store (s : State) (l : LensEngine) : (s.setLens l).store = s.store := rfl
@[simp] theorem State.setLens_supply (s : State) (l : LensEngine) : (s.setLens l).supply = s.supply := rfl
@[simp] theorem State.setLens_deviceTime (s : State) (l : LensEngine) : (s.setLens l).deviceTime = s.deviceTime := rfl
@[simp] theorem State.setLens_hardReset (s : State) (l : LensEngine) : (s.setLens l).hardReset = s.hardReset := rfl
@[simp] theorem State.setLens_draws (s : State) (l : LensEngine) : (s.setLens l).draws = s.draws := rfl
@[simp] theorem State.setLens_pending (s : State) (l : LensEngine) : (s.setLens l).pending = s.pending := rfl
@[simp] theorem State.record_loop (s : State) (b : RecordBody) : (s.record b).loop = s.loop := rfl
@[simp] theorem State.record_nodes (s : State) (b : RecordBody) : (s.record b).nodes = s.nodes := rfl
@[simp] theorem State.record_channels (s : State) (b : RecordBody) : (s.record b).channels = s.channels := rfl
@[simp] theorem State.record_points (s : State) (b : RecordBody) : (s.record b).points = s.points := rfl
@[simp] theorem State.record_sections (s : State) (b : RecordBody) : (s.record b).sections = s.sections := rfl
@[simp] theorem State.record_trip (s : State) (b : RecordBody) : (s.record b).trip = s.trip := rfl
@[simp] theorem State.record_lens (s : State) (b : RecordBody) : (s.record b).lens = s.lens := rfl
@[simp] theorem State.record_agent (s : State) (b : RecordBody) : (s.record b).agent = s.agent := rfl
@[simp] theorem State.record_store (s : State) (b : RecordBody) : (s.record b).store = s.store := rfl
@[simp] theorem State.record_supply (s : State) (b : RecordBody) : (s.record b).supply = s.supply := rfl
@[simp] theorem State.record_deviceTime (s : State) (b : RecordBody) : (s.record b).deviceTime = s.deviceTime := rfl
@[simp] theorem State.record_hardReset (s : State) (b : RecordBody) : (s.record b).hardReset = s.hardReset := rfl
@[simp] theorem State.record_draws (s : State) (b : RecordBody) : (s.record b).draws = s.draws := rfl
@[simp] theorem State.record_pending (s : State) (b : RecordBody) : (s.record b).pending = s.pending := rfl
@[simp] theorem State.updateOrder_loop (s : State) (b : Nat) (f : Order → Order) : (s.updateOrder b f).loop = s.loop := rfl
@[simp] theorem State.updateOrder_nodes (s : State) (b : Nat) (f : Order → Order) : (s.updateOrder b f).nodes = s.nodes := rfl
@[simp] theorem State.updateOrder_channels (s : State) (b : Nat) (f : Order → Order) : (s.updateOrder b f).channels = s.channels := rfl
@[simp] theorem State.updateOrder_points (s : State) (b : Nat) (f : Order → Order) : (s.updateOrder b f).points = s.points := rfl
@[simp] theorem State.updateOrder_sections (s : State) (b : Nat) (f : Order → Order) : (s.updateOrder b f).sections = s.sections := rfl
@[simp] theorem State.updateOrder_lens (s : State) (b : Nat) (f : Order → Order) : (s.updateOrder b f).lens = s.lens := rfl
@[simp] theorem State.updateOrder_pool (s : State) (b : Nat) (f : Order → Order) : (s.updateOrder b f).pool = s.pool := rfl
@[simp] theorem State.updateOrder_agent (s : State) (b : Nat) (f : Order → Order) : (s.updateOrder b f).agent = s.agent := rfl
@[simp] theorem State.updateOrder_store (s : State) (b : Nat) (f : Order → Order) : (s.updateOrder b f).store = s.store := rfl
@[simp] theorem State.updateOrder_supply (s : State) (b : Nat) (f : Order → Order) : (s.updateOrder b f).supply = s.supply := rfl
@[simp] theorem State.updateOrder_deviceTime (s : State) (b : Nat) (f : Order → Order) : (s.updateOrder b f).deviceTime = s.deviceTime := rfl
@[simp] theorem State.updateOrder_hardReset (s : State) (b : Nat) (f : Order → Order) : (s.updateOrder b f).hardReset = s.hardReset := rfl
@[simp] theorem State.updateOrder_draws (s : State) (b : Nat) (f : Order → Order) : (s.updateOrder b f).draws = s.draws := rfl
@[simp] theorem State.updateOrder_pending (s : State) (b : Nat) (f : Order → Order) : (s.updateOrder b f).pending = s.pending := rfl
@[simp] theorem State.clearWaiting_loop (s : State) (b : Nat) : (s.clearWaiting b).loop = s.loop := rfl
@[simp] theorem State.clearWaiting_nodes (s : State) (b : Nat) : (s.clearWaiting b).nodes = s.nodes := rfl
@[simp] theorem State.clearWaiting_channels (s : State) (b : Nat) : (s.clearWaiting b).channels = s.channels := rfl
@[simp] theorem State.clearWaiting_points (s : State) (b : Nat) : (s.clearWaiting b).points = s.points := rfl
@[simp] theorem State.clearWaiting_sections (s : State) (b : Nat) : (s.clearWaiting b).sections = s.sections := rfl
@[simp] theorem State.clearWaiting_lens (s : State) (b : Nat) : (s.clearWaiting b).lens = s.lens := rfl
@[simp] theorem State.clearWaiting_pool (s : State) (b : Nat) : (s.clearWaiting b).pool = s.pool := rfl
@[simp] theorem State.clearWaiting_agent (s : State) (b : Nat) : (s.clearWaiting b).agent = s.agent := rfl
@[simp] theorem State.clearWaiting_store (s : State) (b : Nat) : (s.clearWaiting b).store = s.store := rfl
@[simp] theorem State.clearWaiting_supply (s : State) (b : Nat) : (s.clearWaiting b).supply = s.supply := rfl
@[simp] theorem State.clearWaiting_deviceTime (s : State) (b : Nat) : (s.clearWaiting b).deviceTime = s.deviceTime := rfl
@[simp] theorem State.clearWaiting_hardReset (s : State) (b : Nat) : (s.clearWaiting b).hardReset = s.hardReset := rfl
@[simp] theorem State.clearWaiting_draws (s : State) (b : Nat) : (s.clearWaiting b).draws = s.draws := rfl
@[simp] theorem State.clearWaiting_pending (s : State) (b : Nat) : (s.clearWaiting b).pending = s.pending := rfl

@[simp] theorem State.setLoop_loop (s : State) (l : LoopPort) : (s.setLoop l).loop = l := rfl
@[simp] theorem State.setLens_lens (s : State) (l : LensEngine) : (s.setLens l).lens = l := rfl
@[simp] theorem State.record_pool (s : State) (b : RecordBody) : (s.record b).pool = s.pool.take s.deviceTime b := rfl
@[simp] theorem State.setOrders_orders (s : State) (os : List Order) : (s.setOrders os).trip.orders = os := rfl
@[simp] theorem State.setOrders_positions (s : State) (os : List Order) :
    (s.setOrders os).trip.positions = s.trip.positions := rfl
@[simp] theorem State.setOrders_lines (s : State) (os : List Order) : (s.setOrders os).trip.lines = s.trip.lines := rfl
@[simp] theorem State.setPosition_orders (s : State) (b : Nat) (p : Position) :
    (s.setPosition b p).trip.orders = s.trip.orders := rfl
@[simp] theorem State.setPosition_lines (s : State) (b : Nat) (p : Position) :
    (s.setPosition b p).trip.lines = s.trip.lines := rfl
@[simp] theorem State.setLine_orders (s : State) (l : Nat) (x : TripLine) :
    (s.setLine l x).trip.orders = s.trip.orders := rfl
@[simp] theorem State.setLine_positions (s : State) (l : Nat) (x : TripLine) :
    (s.setLine l x).trip.positions = s.trip.positions := rfl
@[simp] theorem State.updateOrder_orders (s : State) (b : Nat) (f : Order → Order) :
    (s.updateOrder b f).trip.orders = s.trip.orders.map fun o => if o.breaker = b then f o else o := rfl
@[simp] theorem State.updateOrder_positions (s : State) (b : Nat) (f : Order → Order) :
    (s.updateOrder b f).trip.positions = s.trip.positions := rfl
@[simp] theorem State.updateOrder_lines (s : State) (b : Nat) (f : Order → Order) :
    (s.updateOrder b f).trip.lines = s.trip.lines := rfl
@[simp] theorem State.clearWaiting_positions (s : State) (b : Nat) :
    (s.clearWaiting b).trip.positions = s.trip.positions := rfl
@[simp] theorem State.clearWaiting_lines (s : State) (b : Nat) : (s.clearWaiting b).trip.lines = s.trip.lines := rfl
@[simp] theorem State.setSection_channelViews (s : State) (i : Nat) (r : SectionRec) :
    (s.setSection i r).sections.channelViews = s.sections.channelViews := rfl
@[simp] theorem State.setSection_pointViews (s : State) (i : Nat) (r : SectionRec) :
    (s.setSection i r).sections.pointViews = s.sections.pointViews := rfl
@[simp] theorem State.setChannelView_records (s : State) (i : Nat) (v : ChannelView) :
    (s.setChannelView i v).sections.records = s.sections.records := rfl
@[simp] theorem State.setChannelView_pointViews (s : State) (i : Nat) (v : ChannelView) :
    (s.setChannelView i v).sections.pointViews = s.sections.pointViews := rfl
@[simp] theorem State.setPointView_records (s : State) (i : Nat) (v : PointView) :
    (s.setPointView i v).sections.records = s.sections.records := rfl
@[simp] theorem State.setPointView_channelViews (s : State) (i : Nat) (v : PointView) :
    (s.setPointView i v).sections.channelViews = s.sections.channelViews := rfl

/-! ## Readers that depend on one field -/

theorem State.node_congr {s t : State} (h : t.nodes = s.nodes) (i : Nat) : t.node i = s.node i := by
  unfold State.node; rw [h]
theorem State.channel_congr {s t : State} (h : t.channels = s.channels) (i : Nat) : t.channel i = s.channel i := by
  unfold State.channel; rw [h]
theorem State.point_congr {s t : State} (h : t.points = s.points) (i : Nat) : t.point i = s.point i := by
  unfold State.point; rw [h]
theorem State.position_congr {s t : State} (h : t.trip.positions = s.trip.positions) (i : Nat) : t.position i = s.position i := by
  unfold State.position; rw [h]
theorem State.channelView_congr {s t : State} (h : t.sections.channelViews = s.sections.channelViews) (i : Nat) : t.channelView i = s.channelView i := by
  unfold State.channelView; rw [h]
theorem State.pointView_congr {s t : State} (h : t.sections.pointViews = s.sections.pointViews) (i : Nat) : t.pointView i = s.pointView i := by
  unfold State.pointView; rw [h]
theorem State.sectionRec_congr {s t : State} (h : t.sections.records = s.sections.records) (i : Nat) : t.sectionRec i = s.sectionRec i := by
  unfold State.sectionRec; rw [h]
theorem State.line_congr {s t : State} (h : t.trip.lines = s.trip.lines) (i : Nat) : t.line i = s.line i := by
  unfold State.line; rw [h]
theorem State.order_congr {s t : State} (h : t.trip.orders = s.trip.orders) (b : Nat) : t.order b = s.order b := by
  unfold State.order; rw [h]
theorem State.tables_congr {s t : State} (h : t.agent.active = s.agent.active) : t.tables = s.tables := h

/-! ## Reading what was written -/

theorem State.node_setNode (s : State) (i j : Nat) (r : NodeRec) :
    (s.setNode i r).node j = if i = j ∧ j < Config.nodeCount then some r else s.node j := by
  simp only [State.node, State.setNode, Vector.getElem?_setIfInBounds]
  split <;> rename_i h
  · subst h; split <;> simp_all
  · simp [h]
theorem State.channel_setChannel (s : State) (i j : Nat) (r : ChannelRec) :
    (s.setChannel i r).channel j = if i = j ∧ j < Config.channelCount then some r else s.channel j := by
  simp only [State.channel, State.setChannel, Vector.getElem?_setIfInBounds]
  split <;> rename_i h
  · subst h; split <;> simp_all
  · simp [h]
theorem State.point_setPoint (s : State) (i j : Nat) (r : PointRec) :
    (s.setPoint i r).point j = if i = j ∧ j < Config.pointCount then some r else s.point j := by
  simp only [State.point, State.setPoint, Vector.getElem?_setIfInBounds]
  split <;> rename_i h
  · subst h; split <;> simp_all
  · simp [h]
theorem State.position_setPosition (s : State) (i j : Nat) (r : Position) :
    (s.setPosition i r).position j = if i = j ∧ j < Config.breakerCount then some r else s.position j := by
  simp only [State.position, State.setPosition, Vector.getElem?_setIfInBounds]
  split <;> rename_i h
  · subst h; split <;> simp_all
  · simp [h]
theorem State.channelView_setChannelView (s : State) (i j : Nat) (r : ChannelView) :
    (s.setChannelView i r).channelView j = if i = j ∧ j < Config.channelCount then some r else s.channelView j := by
  simp only [State.channelView, State.setChannelView, Vector.getElem?_setIfInBounds]
  split <;> rename_i h
  · subst h; split <;> simp_all
  · simp [h]
theorem State.pointView_setPointView (s : State) (i j : Nat) (r : PointView) :
    (s.setPointView i r).pointView j = if i = j ∧ j < Config.pointCount then some r else s.pointView j := by
  simp only [State.pointView, State.setPointView, Vector.getElem?_setIfInBounds]
  split <;> rename_i h
  · subst h; split <;> simp_all
  · simp [h]
theorem State.sectionRec_setSection (s : State) (i j : Nat) (r : SectionRec) :
    (s.setSection i r).sectionRec j = if i = j ∧ j < Config.sectionCount then r else s.sectionRec j := by
  simp only [State.sectionRec, State.setSection, Vector.getElem?_setIfInBounds]
  split <;> rename_i h
  · subst h; split <;> simp_all
  · simp [h]
theorem State.line_setLine (s : State) (i j : Nat) (r : TripLine) :
    (s.setLine i r).line j = if i = j ∧ j < Config.lineCount then r else s.line j := by
  simp only [State.line, State.setLine, Vector.getElem?_setIfInBounds]
  split <;> rename_i h
  · subst h; split <;> simp_all
  · simp [h]

end Sys2Proof.Machine
end

