-- ==== Sys2Proof/Laws/Kept.lean ====
section
/-! SUPPORT. What the operations of each chapter leave as it stands: one relation for each layer of the machine, kept by every
operation of the layer. Later proofs cite these and do not unfold the operations. -/

namespace Sys2Proof.Machine

/-- The Loop Port's state without its queues, the frame being sent, the output sequence number and the outstanding claim
number: what the queueing and starting of frames leaves alone. -/
def LoopPort.rest (l : LoopPort) : LoopPort :=
  { l with tripQ := [], controlQ := [], routineQ := [], sending := none, outSeq := 0, outstanding := none }

/-- Kept by every operation but an activation, a reset, a request on the agent's own state and the passing of time. -/
structure Kept (s t : State) : Prop where
  active     : t.agent.active = s.agent.active
  shadow     : t.agent.shadow = s.agent.shadow
  mode       : t.agent.mode = s.agent.mode
  state      : t.agent.state = s.agent.state
  activation : t.agent.activation = s.agent.activation
  held       : t.agent.held = s.agent.held
  reset      : t.agent.softResetPending = s.agent.softResetPending
  store      : t.store = s.store
  supply     : t.supply = s.supply
  deviceTime : t.deviceTime = s.deviceTime
  hardReset  : t.hardReset = s.hardReset
  pending    : t.pending = s.pending

/-- Kept by the operations of the Lens Check Engine, and by those of the layers below it. -/
structure KeptByLens (s t : State) : Prop extends Kept s t where
  nodes     : t.nodes = s.nodes
  points    : t.points = s.points
  positions : t.trip.positions = s.trip.positions
  draws     : t.draws = s.draws
  loopRest  : t.loop.rest = s.loop.rest

/-- Kept by the operations of the Light Qualifier, and by those of the layers below it. -/
structure KeptByLight (s t : State) : Prop extends KeptByLens s t where
  lens : t.lens = s.lens

/-- Kept by the operations of the Section Evaluator, and by those of the Trip Dispatcher. -/
structure KeptBySections (s t : State) : Prop extends KeptByLight s t where
  channels : t.channels = s.channels

/-- Kept by the operations of the Trip Dispatcher on orders and lines. -/
structure KeptByOrders (s t : State) : Prop extends KeptBySections s t where
  sections : t.sections = s.sections

/-- Kept by the operations of the Current Confirmation Unit. -/
structure KeptByCurrent (s t : State) : Prop extends Kept s t where
  nodes     : t.nodes = s.nodes
  channels  : t.channels = s.channels
  positions : t.trip.positions = s.trip.positions
  draws     : t.draws = s.draws
  loopRest  : t.loop.rest = s.loop.rest
  lens      : t.lens = s.lens

/-! ## Each relation chains -/

theorem KeptByOrders.refl (s : State) : KeptByOrders s s := by constructor <;> (try constructor) <;> (try constructor) <;> (try constructor) <;> (try constructor) <;> rfl

theorem Kept.trans {s t u : State} (h : Kept s t) (k : Kept t u) : Kept s u :=
  ⟨k.1.trans h.1, k.2.trans h.2, k.3.trans h.3, k.4.trans h.4, k.5.trans h.5, k.6.trans h.6, k.7.trans h.7, k.8.trans h.8,
   k.9.trans h.9, k.10.trans h.10, k.11.trans h.11, k.12.trans h.12⟩

theorem KeptByLens.trans {s t u : State} (h : KeptByLens s t) (k : KeptByLens t u) : KeptByLens s u :=
  ⟨h.toKept.trans k.toKept, k.nodes.trans h.nodes, k.points.trans h.points, k.positions.trans h.positions,
   k.draws.trans h.draws, k.loopRest.trans h.loopRest⟩

theorem KeptByLight.trans {s t u : State} (h : KeptByLight s t) (k : KeptByLight t u) : KeptByLight s u :=
  ⟨h.toKeptByLens.trans k.toKeptByLens, k.lens.trans h.lens⟩

theorem KeptBySections.trans {s t u : State} (h : KeptBySections s t) (k : KeptBySections t u) : KeptBySections s u :=
  ⟨h.toKeptByLight.trans k.toKeptByLight, k.channels.trans h.channels⟩

theorem KeptByOrders.trans {s t u : State} (h : KeptByOrders s t) (k : KeptByOrders t u) : KeptByOrders s u :=
  ⟨h.toKeptBySections.trans k.toKeptBySections, k.sections.trans h.sections⟩

theorem KeptByCurrent.trans {s t u : State} (h : KeptByCurrent s t) (k : KeptByCurrent t u) : KeptByCurrent s u :=
  ⟨h.toKept.trans k.toKept, k.nodes.trans h.nodes, k.channels.trans h.channels, k.positions.trans h.positions,
   k.draws.trans h.draws, k.loopRest.trans h.loopRest, k.lens.trans h.lens⟩

theorem KeptBySections.toCurrent {s t : State} (h : KeptBySections s t) : KeptByCurrent s t :=
  ⟨h.toKept, h.nodes, h.channels, h.positions, h.draws, h.loopRest, h.lens⟩

theorem KeptBySections.refl (s : State) : KeptBySections s s := (KeptByOrders.refl s).toKeptBySections
theorem KeptByLight.refl (s : State) : KeptByLight s s := (KeptBySections.refl s).toKeptByLight
theorem KeptByLens.refl (s : State) : KeptByLens s s := (KeptByLight.refl s).toKeptByLens
theorem Kept.refl (s : State) : Kept s s := (KeptByLens.refl s).toKept
theorem KeptByCurrent.refl (s : State) : KeptByCurrent s s := (KeptBySections.refl s).toCurrent

/-- A fold of operations that each keep what a relation keeps. -/
theorem keeps_foldl {R : State → State → Prop} (hr : ∀ s, R s s) (ht : ∀ {s t u}, R s t → R t u → R s u)
    {f : State → α → State} (hf : ∀ s a, R s (f s a)) (l : List α) (s : State) : R s (l.foldl f s) := by
  induction l generalizing s with
  | nil => exact hr s
  | cons a l ih => exact ht (hf s a) (ih _)

/-! ## Shared operations -/

theorem record_kept (s : State) (b : RecordBody) : KeptByOrders s (s.record b) := by
  constructor <;> (try constructor) <;> (try constructor) <;> (try constructor) <;> (try constructor) <;> rfl

theorem setOrders_kept (s : State) (os : List Order) : KeptByOrders s (s.setOrders os) := by
  constructor <;> (try constructor) <;> (try constructor) <;> (try constructor) <;> (try constructor) <;> rfl

theorem updateOrder_kept (s : State) (b : Nat) (f : Order → Order) : KeptByOrders s (s.updateOrder b f) :=
  setOrders_kept s _

theorem clearWaiting_kept (s : State) (b : Nat) : KeptByOrders s (s.clearWaiting b) := updateOrder_kept s b _

theorem setLine_kept (s : State) (l : Nat) (x : TripLine) : KeptByOrders s (s.setLine l x) := by
  constructor <;> (try constructor) <;> (try constructor) <;> (try constructor) <;> (try constructor) <;> rfl

theorem disturb_kept (s : State) : KeptByOrders s s.disturb := by
  unfold State.disturb
  split
  · constructor <;> (try constructor) <;> (try constructor) <;> (try constructor) <;> (try constructor) <;> rfl
  · exact .refl s

/-- A change of the Loop Port that leaves its rest alone. -/
theorem setLoop_kept (s : State) (l : LoopPort) (h : l.rest = s.loop.rest) : KeptByOrders s (s.setLoop l) := by
  constructor <;> (try constructor) <;> (try constructor) <;> (try constructor) <;> (try constructor) <;> first | rfl | exact h

theorem startNext_kept (s : State) : KeptByOrders s s.startNext := by
  unfold State.startNext
  split
  · exact (setLoop_kept s _ (by rfl)).trans (clearWaiting_kept _ _)
  all_goals exact setLoop_kept s _ rfl

theorem startIfIdle_kept (s : State) : KeptByOrders s s.startIfIdle := by
  unfold State.startIfIdle
  split
  · exact startNext_kept s
  · exact .refl s

theorem pushControl_kept (s : State) (f : ControlFrame) : KeptByOrders s (s.pushControl f) :=
  (setLoop_kept s _ (by rfl)).trans (startIfIdle_kept _)

theorem pushTrip_kept (s : State) (f : TripFrame) : KeptByOrders s (s.pushTrip f) :=
  (setLoop_kept s _ (by rfl)).trans (startIfIdle_kept _)

theorem pushRoutine_kept (s : State) (r : Response) : KeptByOrders s (s.pushRoutine r) :=
  (setLoop_kept s _ (by rfl)).trans (startIfIdle_kept _)

theorem withdrawTrip_kept (s : State) (b : Nat) : KeptByOrders s (s.withdrawTrip b) :=
  (setLoop_kept s _ (by rfl)).trans (clearWaiting_kept _ _)

/-! ## Trip Dispatcher -/

theorem attemptSend_kept (s : State) (b : Nat) : KeptByOrders s (s.attemptSend b) := by
  unfold State.attemptSend
  split
  · split
    · exact (updateOrder_kept s b _).trans (pushTrip_kept _ _)
    · exact .refl s
  · exact .refl s

theorem driveLine_kept (s : State) (b : Nat) : KeptByOrders s (s.driveLine b) := by
  unfold State.driveLine
  split
  · split
    · exact .refl s
    · exact setLine_kept s _ _
  · exact .refl s

theorem reconsiderLine_kept (s : State) (b : Nat) : KeptByOrders s (s.reconsiderLine b) := by
  unfold State.reconsiderLine
  split
  · split
    · exact .refl s
    · exact setLine_kept s _ _
  · exact .refl s

/-- What is asked for nests in what an operation is given: `ask` keeps what orders keep. -/
abbrev AskKeeps (ask : Nat → SectionSet → Nat → State → State) : Prop := ∀ b c d s, KeptByOrders s (ask b c d s)

theorem markFailed_kept (s : State) (o : Order) (r : FailReason) : KeptByOrders s (s.markFailed o r) :=
  (updateOrder_kept s _ _).trans (record_kept _ _)

theorem askBackups_kept {ask} (h : AskKeeps ask) (b : Nat) (c : SectionSet) (d : Nat) (s : State) :
    KeptByOrders s (s.askBackups ask b c d) :=
  keeps_foldl KeptByOrders.refl KeptByOrders.trans (fun s b' => h b' c (d + 1) s) _ s

theorem escalate_kept {ask} (h : AskKeeps ask) (o : Order) (s : State) : KeptByOrders s (s.escalate ask o) := by
  unfold State.escalate
  split
  · exact record_kept s _
  · split
    · exact record_kept s _
    · exact askBackups_kept h _ _ _ s

theorem failWith_kept {ask} (h : AskKeeps ask) (b : Nat) (r : FailReason) (s : State) :
    KeptByOrders s (s.failWith ask b r) := by
  unfold State.failWith
  split
  · exact (markFailed_kept s _ r).trans (escalate_kept h _ _)
  · exact .refl s

theorem failIfCut_kept {ask} (h : AskKeeps ask) (b : Nat) (s : State) : KeptByOrders s (s.failIfCut ask b) := by
  unfold State.failIfCut
  split
  · exact failWith_kept h b .cut s
  · exact .refl s

theorem createOrder_kept {ask} (h : AskKeeps ask) (b : Nat) (p : Position) (c : SectionSet) (d : Nat) (s : State) :
    KeptByOrders s (s.createOrder ask b p c d) := by
  have k := ((setOrders_kept s (s.trip.orders ++ [s.newOrder b p c d])).trans (disturb_kept _)).trans
    (record_kept _ (orderRecord .orderIssued (s.newOrder b p c d) (value2 d (s.newOrder b p c d).state.code)))
  unfold State.createOrder
  split
  · exact k
  · exact ((k.trans (attemptSend_kept _ b)).trans (driveLine_kept _ b)).trans (failIfCut_kept h b _)

theorem mergeOrder_kept {ask} (h : AskKeeps ask) (o : Order) (c : SectionSet) (d : Nat) (s : State) :
    KeptByOrders s (s.mergeOrder ask o c d) := by
  unfold State.mergeOrder
  dsimp only
  split
  · exact (updateOrder_kept s _ _).trans (askBackups_kept h _ _ _ _)
  · exact updateOrder_kept s _ _

theorem askOrder_kept (fuel : Nat) : AskKeeps (askOrder fuel) := by
  induction fuel with
  | zero => exact fun _ _ _ s => .refl s
  | succ n ih =>
    intro b c d s
    unfold askOrder
    split
    · exact mergeOrder_kept ih _ c d s
    · exact createOrder_kept ih b _ c d s
    · exact .refl s

theorem ask_kept : AskKeeps State.ask := askOrder_kept _

theorem failOrder_kept (b : Nat) (r : FailReason) (s : State) : KeptByOrders s (s.failOrder b r) :=
  failWith_kept ask_kept b r s

theorem askBoundary_kept (i : Nat) (bs : List Nat) (s : State) : KeptByOrders s (State.askBoundary i bs s) :=
  keeps_foldl KeptByOrders.refl KeptByOrders.trans (fun s b => ask_kept b _ 0 s) bs s

theorem enterCut_kept (s : State) (b : Nat) : KeptByOrders s (s.enterCut b) := by
  unfold State.enterCut
  split
  · split
    · exact failIfCut_kept ask_kept b s
    · exact .refl s
  · exact .refl s

theorem openOrder_kept (s : State) (o : Order) : KeptByOrders s (s.openOrder o) :=
  ((updateOrder_kept s _ _).trans (record_kept _ _)).trans (reconsiderLine_kept _ _)

theorem reissueOrder_kept (s : State) (o : Order) (p : Position) : KeptByOrders s (s.reissueOrder o p) :=
  (((((updateOrder_kept s _ _).trans (record_kept _ _)).trans (updateOrder_kept _ _ _)).trans
    (attemptSend_kept _ _)).trans (driveLine_kept _ _)).trans (failIfCut_kept ask_kept _ _)

theorem orderSeesPosition_kept (s : State) (b : Nat) (p : Position) : KeptByOrders s (s.orderSeesPosition b p) := by
  unfold State.orderSeesPosition
  split
  · exact .refl s
  · split
    · split
      · exact openOrder_kept s _
      · exact .refl s
    · split
      · exact reissueOrder_kept s _ p
      · exact .refl s

theorem resendExpiry_kept (s : State) (b : Nat) : KeptByOrders s (s.resendExpiry b) := by
  unfold State.resendExpiry
  split
  · split
    · exact (updateOrder_kept s b _).trans (attemptSend_kept _ b)
    · exact .refl s
  · exact .refl s

theorem failureExpiry_kept (s : State) (b : Nat) : KeptByOrders s (s.failureExpiry b) := by
  unfold State.failureExpiry
  split
  · split
    · exact failOrder_kept b .timer s
    · exact .refl s
  · exact .refl s

theorem pulseExpiry_kept (s : State) (l : Nat) : KeptByOrders s (s.pulseExpiry l) := by
  unfold State.pulseExpiry
  split
  · exact setLine_kept s _ _
  · exact .refl s

theorem removeCause_kept (i : Nat) (s : State) (b : Nat) : KeptByOrders s (State.removeCause i s b) := by
  unfold State.removeCause
  split
  · exact .refl s
  · dsimp only
    split
    · exact .refl s
    · split
      · exact ((setOrders_kept s _).trans (withdrawTrip_kept _ b)).trans (reconsiderLine_kept _ b)
      · exact updateOrder_kept s b _

theorem removeSection_kept (s : State) (i : Nat) : KeptByOrders s (s.removeSection i) :=
  keeps_foldl KeptByOrders.refl KeptByOrders.trans (removeCause_kept i) _ s

/-! ## Section Evaluator -/

theorem setSection_kept (s : State) (i : Nat) (r : SectionRec) : KeptBySections s (s.setSection i r) := by
  constructor <;> (try constructor) <;> (try constructor) <;> (try constructor) <;> rfl

theorem setChannelView_kept (s : State) (i : Nat) (v : ChannelView) : KeptBySections s (s.setChannelView i v) := by
  constructor <;> (try constructor) <;> (try constructor) <;> (try constructor) <;> rfl

theorem setPointView_kept (s : State) (i : Nat) (v : PointView) : KeptBySections s (s.setPointView i v) := by
  constructor <;> (try constructor) <;> (try constructor) <;> (try constructor) <;> rfl

theorem enterTripped_kept (s : State) (i : Nat) (c : Cause) : KeptBySections s (s.enterTripped i c) :=
  (setSection_kept s i _).trans
    (((disturb_kept _).trans (record_kept _ _)).trans (askBoundary_kept i _ _)).toKeptBySections

theorem alarmUnconfirmable_kept (s : State) (i : Nat) : KeptBySections s (s.alarmUnconfirmable i) := by
  unfold State.alarmUnconfirmable
  dsimp only
  split
  · exact (record_kept s _).toKeptBySections.trans (setSection_kept _ i _)
  · exact .refl s

theorem beginLight_kept (s : State) (i : Nat) : KeptBySections s (s.beginLight i) :=
  (setSection_kept s i _).trans (disturb_kept _).toKeptBySections

theorem evaluate_kept (s : State) (i : Nat) (c : Cause) : KeptBySections s (s.evaluate i c) := by
  unfold State.evaluate
  split
  · exact enterTripped_kept s i c
  · split
    · split
      · exact alarmUnconfirmable_kept s i
      · exact (beginLight_kept s i).trans (alarmUnconfirmable_kept _ i)
    · exact setSection_kept s i _

theorem reportTo_kept (s : State) (i : Nat) (c : Cause) : KeptBySections s (s.reportTo i c) := by
  unfold State.reportTo
  split
  · exact evaluate_kept s i c
  · exact .refl s

theorem reportChannel_kept (s : State) (c : Nat) (v : ChannelView) : KeptBySections s (s.reportChannel c v) := by
  unfold State.reportChannel
  dsimp only
  split
  · exact (setChannelView_kept s c v).trans (reportTo_kept _ _ _)
  · exact setChannelView_kept s c v

theorem reportPoint_kept (s : State) (p : Nat) (v : PointView) : KeptBySections s (s.reportPoint p v) :=
  (setPointView_kept s p v).trans
    (keeps_foldl KeptBySections.refl KeptBySections.trans
      (fun s i => by
        split
        · exact reportTo_kept s i _
        · exact .refl s) _ _)

theorem recompute_kept (s : State) (i : Nat) : KeptBySections s (s.recompute i) := by
  unfold State.recompute
  dsimp only
  split
  · exact setSection_kept s i _
  · split
    · exact setSection_kept s i _
    · split
      · exact setSection_kept s i _
      · exact (setSection_kept s i _).trans (evaluate_kept _ i _)

theorem persistenceExpiry_kept (s : State) (i : Nat) : KeptBySections s (s.persistenceExpiry i) := by
  unfold State.persistenceExpiry
  dsimp only
  split
  · split
    · exact setSection_kept s i _
    · exact (setSection_kept s i _).trans (record_kept _ _).toKeptBySections
  · exact .refl s

theorem onSection_kept {s : State} {i : Nat} {x : State × Result} (h : KeptBySections s x.1) :
    KeptBySections s (s.onSection i x).1 := by
  unfold State.onSection
  split
  · exact .refl s
  · exact h

theorem setBlockOn_kept (s : State) (i : Nat) : KeptBySections s (s.setBlockOn i).1 := by
  refine onSection_kept ?_
  dsimp only
  split
  · exact setSection_kept s i _
  · exact (setSection_kept s i _).trans (record_kept _ _).toKeptBySections

theorem setBlockOff_kept (s : State) (i : Nat) : KeptBySections s (s.setBlockOff i).1 := by
  refine onSection_kept ?_
  dsimp only
  split <;> split
  · exact ((setSection_kept s i _).trans (record_kept _ _).toKeptBySections).trans (evaluate_kept _ i _)
  · exact (setSection_kept s i _).trans (evaluate_kept _ i _)
  · exact (setSection_kept s i _).trans (record_kept _ _).toKeptBySections
  · exact setSection_kept s i _

theorem setMaintenance_kept (s : State) (i : Nat) (on : Bool) : KeptBySections s (s.setMaintenance i on).1 := by
  refine onSection_kept ?_
  dsimp only
  split
  · exact .refl s
  · exact ((setSection_kept s i _).trans (record_kept _ _).toKeptBySections).trans (reportTo_kept _ i _)

theorem release_kept (s : State) (i : Nat) : KeptBySections s (s.release i).1 := by
  refine onSection_kept ?_
  split
  · exact ((removeSection_kept s i).toKeptBySections.trans (setSection_kept _ i _)).trans
      (record_kept _ _).toKeptBySections
  · exact .refl s

/-! ## Light Qualifier -/

theorem setChannel_kept (s : State) (c : Nat) (r : ChannelRec) : KeptByLight s (s.setChannel c r) := by
  constructor <;> (try constructor) <;> (try constructor) <;> rfl

theorem flickerRecord_kept (s : State) (c : Nat) (e : FlickerEvent) : KeptByOrders s (s.flickerRecord c e) := by
  cases e
  · exact .refl s
  · exact record_kept s _
  · exact record_kept s _

theorem changeChannel_kept (s : State) (c : Nat) (old new : ChannelRec) : KeptByLight s (s.changeChannel c old new) := by
  unfold State.changeChannel
  dsimp only
  split
  · exact setChannel_kept s c new
  · exact (setChannel_kept s c new).trans (reportChannel_kept _ _ _).toKeptByLight

theorem processSample_kept (s : State) (c : Nat) (x : Sample) : KeptByLight s (s.processSample c x) := by
  unfold State.processSample
  split
  · exact .refl s
  · exact ((flickerRecord_kept s c _).trans (flickerRecord_kept _ c _)).toKeptByLight.trans (changeChannel_kept _ c _ _)

theorem processMany_kept (s : State) (c : Nat) (x : Sample) (n : Nat) : KeptByLight s (s.processMany c x n) := by
  induction n generalizing s with
  | zero => exact .refl s
  | succ n ih => exact (processSample_kept s c x).trans (ih _)

theorem processDelivered_kept (s : State) (c level gap : Nat) : KeptByLight s (s.processDelivered c level gap) := by
  unfold State.processDelivered
  split
  · exact .refl s
  · exact ((processMany_kept s c _ _).trans (processMany_kept _ c _ _)).trans (processSample_kept _ c _)

theorem channelStale_kept (s : State) (c : Nat) : KeptByLight s (s.channelStale c) := by
  unfold State.channelStale
  split
  · exact changeChannel_kept s c _ _
  · exact .refl s

theorem channelLive_kept (s : State) (c : Nat) : KeptByLight s (s.channelLive c) := by
  unfold State.channelLive
  split
  · split
    · exact changeChannel_kept s c _ _
    · exact .refl s
  · exact .refl s

theorem startTesting_kept (s : State) (c : Nat) : KeptByLight s (s.startTesting c) := by
  unfold State.startTesting
  split
  · exact changeChannel_kept s c _ _
  · exact .refl s

theorem handOver_kept (s : State) (c gain : Nat) (st : Standing) : KeptByLight s (s.handOver c gain st) := by
  unfold State.handOver
  split
  · exact setChannel_kept s c _
  · exact .refl s

theorem leaveTesting_kept (s : State) (c : Nat) (a : Option Nat) : KeptByLight s (s.leaveTesting c a) := by
  unfold State.leaveTesting
  split
  · split
    · exact .refl s
    · split
      · dsimp only
        split
        · exact (changeChannel_kept s c _ _).trans (processSample_kept _ c _)
        · exact changeChannel_kept s c _ _
      · exact changeChannel_kept s c _ _
  · exact .refl s

/-! ## Current Confirmation Unit -/

theorem setPoint_kept (s : State) (p : Nat) (r : PointRec) : KeptByCurrent s (s.setPoint p r) := by
  constructor <;> (try constructor) <;> rfl

theorem changePoint_kept (s : State) (p : Nat) (old new : PointRec) : KeptByCurrent s (s.changePoint p old new) := by
  unfold State.changePoint
  dsimp only
  split
  · exact setPoint_kept s p new
  · exact (setPoint_kept s p new).trans (reportPoint_kept _ _ _).toCurrent

theorem pointGap_kept (s : State) (p gap : Nat) : KeptByCurrent s (s.pointGap p gap) := by
  unfold State.pointGap
  split
  · exact changePoint_kept s p _ _
  · exact .refl s

theorem pointSample_kept (s : State) (p : Nat) (x : Phases) : KeptByCurrent s (s.pointSample p x) := by
  unfold State.pointSample
  split
  · exact changePoint_kept s p _ _
  · exact .refl s

theorem deliverPoint_kept (s : State) (p gap : Nat) (x : Phases) : KeptByCurrent s (s.deliverPoint p gap x) :=
  (pointGap_kept s p gap).trans (pointSample_kept _ p x)

theorem pointStale_kept (s : State) (p : Nat) : KeptByCurrent s (s.pointStale p) := by
  unfold State.pointStale
  split
  · exact changePoint_kept s p _ _
  · exact .refl s

theorem pointLive_kept (s : State) (p : Nat) : KeptByCurrent s (s.pointLive p) := by
  unfold State.pointLive
  split
  · split
    · exact changePoint_kept s p _ _
    · exact .refl s
  · exact .refl s

/-! ## Lens Check Engine -/

theorem setLens_kept (s : State) (l : LensEngine) : KeptByLens s (s.setLens l) := by
  constructor <;> (try constructor) <;> rfl

theorem offerTest_kept (s : State) (f : TestFrame) : KeptByLens s (s.offerTest f) := by
  unfold State.offerTest
  split
  · exact (pushControl_kept s _).toKeptByLens
  · exact setLens_kept s _

theorem putOutLamp_kept (s : State) (c : Nat) : KeptByLens s (s.putOutLamp c) := by
  unfold State.putOutLamp
  split
  · exact setLens_kept s _
  · split
    · exact .refl s
    · exact offerTest_kept s _

theorem endTest_kept (s : State) (c : Nat) (r : LensResult) (a : Option Nat) : KeptByLens s (s.endTest c r a) :=
  (((record_kept s _).toKeptByLens.trans (leaveTesting_kept _ c a).toKeptByLens).trans (putOutLamp_kept _ c)).trans
    (setLens_kept _ _)

theorem completeWindow_kept (s : State) (c : Nat) : KeptByLens s (s.completeWindow c) := by
  unfold State.completeWindow
  split
  · exact .refl s
  · exact (handOver_kept s c _ _).toKeptByLens.trans (endTest_kept _ c _ _)

theorem countFlagged_kept (s : State) (c n p : Nat) : KeptByLens s (s.countFlagged c n p) := by
  unfold State.countFlagged
  dsimp only
  split
  · exact (setLens_kept s _).trans (completeWindow_kept _ c)
  · exact setLens_kept s _

theorem lensSample_kept (s : State) (c level : Nat) (flag : Bool) : KeptByLens s (s.lensSample c level flag) := by
  unfold State.lensSample
  split
  · exact .refl s
  · split
    · exact endTest_kept s c _ _
    · split
      · exact countFlagged_kept s c _ _
      · exact endTest_kept s c _ _
      · exact countFlagged_kept s c _ _
      · exact .refl s

theorem deliverLight_kept (s : State) (c level : Nat) (flag : Bool) (gap : Nat) :
    KeptByLens s (s.deliverLight c level flag gap) := by
  unfold State.deliverLight
  split
  · exact .refl s
  · dsimp only
    split
    · exact ((setChannel_kept s c _).trans (processDelivered_kept _ c _ _)).toKeptByLens
    · exact ((setChannel_kept s c _).trans (processDelivered_kept _ c _ _)).toKeptByLens
    · exact (setChannel_kept s c _).toKeptByLens.trans (lensSample_kept _ c _ _)
    · exact (setChannel_kept s c _).toKeptByLens

theorem startWaitExpiry_kept (s : State) : KeptByLens s s.startWaitExpiry := by
  unfold State.startWaitExpiry
  split
  · exact endTest_kept s _ _ _
  · exact .refl s

theorem testWindowComplete_kept (s : State) : KeptByLens s s.testWindowComplete := by
  unfold State.testWindowComplete
  split
  · split
    · exact countFlagged_kept s _ _ _
    · exact .refl s
  · exact .refl s

theorem lensNodeStale_kept (s : State) (n : Nat) : KeptByLens s (s.lensNodeStale n) := by
  unfold State.lensNodeStale
  split
  · exact .refl s
  · exact .refl s
  · split
    · exact endTest_kept s _ _ _
    · exact .refl s

theorem acceptTest_kept (s : State) (c : Nat) : KeptByLens s (s.acceptTest c) :=
  ((((setLens_kept s _).trans (disturb_kept _).toKeptByLens).trans (startTesting_kept _ c).toKeptByLens).trans
    (offerTest_kept _ _)).trans (setLens_kept _ _)

theorem testLens_kept (s : State) (c : Nat) : KeptByLens s (s.testLens c).1 := by
  unfold State.testLens
  split
  · exact acceptTest_kept s c
  · exact .refl s

end Sys2Proof.Machine
end

