-- ==== Sys2Proof/Laws/Operations.lean ====
section
/-! SUPPORT. What the shared operations do, said once for each: what a processed sample leaves of a channel record, what a change
of a record leaves to be read, the orders as a list, the start of a frame, an evaluation, and the slots of the Event Pool. Later
proofs cite these and do not unfold the operations. -/

namespace Sys2Proof.Machine

/-! ## One processed sample (R46 to R59) -/

/-- A channel record without its flicker window and its FLICKER: what flicker detection leaves alone. -/
def ChannelRec.steady (r : ChannelRec) : ChannelRec := { r with window := none, flicker := false }

theorem countCrossing_steady (e : ChannelEntry) (r : ChannelRec) : (countCrossing e r).1.steady = r.steady := by
  unfold countCrossing
  split
  · rfl
  · dsimp only
    split <;> rfl

theorem closeWindow_steady (e : ChannelEntry) (w : FlickerWindow) (r : ChannelRec) :
    (closeWindow e w r).1.steady = r.steady := by
  unfold closeWindow
  split <;> rfl

theorem advanceWindow_steady (e : ChannelEntry) (r : ChannelRec) : (advanceWindow e r).1.steady = r.steady := by
  unfold advanceWindow
  split
  · rfl
  · dsimp only
    split
    · exact closeWindow_steady _ _ _
    · rfl

theorem flickerStep_steady (e : ChannelEntry) (r : ChannelRec) (crossing : Bool) :
    (flickerStep e r crossing).1.steady = r.steady := by
  have hk : (if crossing then countCrossing e r else (r, .nothing)).1.steady = r.steady := by
    split
    · exact countCrossing_steady e r
    · rfl
  unfold flickerStep
  split
  · rfl
  · dsimp only
    split
    · exact hk
    · exact (advanceWindow_steady _ _).trans hk

/-- A sample turns FLICKER on, turns it off, or leaves it, and calls for the record of what it did (R55, R56, R58). -/
theorem flickerStep_events (e : ChannelEntry) (r : ChannelRec) (crossing : Bool) :
    let f := flickerStep e r crossing
    (r.flicker = false ∧ f.1.flicker = true ∧ f.2 = (.turnedOn, .nothing)) ∨
    (r.flicker = true ∧ f.1.flicker = false ∧ f.2 = (.nothing, .turnedOff)) ∨
    (f.1.flicker = r.flicker ∧ f.2 = (.nothing, .nothing)) := by
  unfold flickerStep countCrossing advanceWindow closeWindow
  by_cases h : e.window = 0
  · simp [h]
  · obtain ⟨-, -, -, -, -, -, w, on, -, -, -⟩ := r
    cases crossing <;> rcases w with _ | w <;> cases on <;> simp <;> split_ifs <;> simp_all <;> split_ifs <;> simp_all

/-- Every field of a channel record after one processed sample, but for its flicker window and FLICKER. -/
theorem process_fields (e : ChannelEntry) (r : ChannelRec) (x : Sample) :
    let t := (r.process e x).1
    let integ := integAfter e r.integ (x.level r)
    t.comp = (match x with
      | .received _ => x.level r
      | _ => r.comp) ∧
    t.integ = integ ∧ t.light = lightAfter integ e.qualify.toNat r.light ∧ t.gain = r.gain ∧ t.raw = r.raw ∧
    t.cond = r.cond ∧ t.standing = r.standing ∧ t.pred = some (belowThreshold e (x.level r)) ∧
    t.eligible = eligibleOf t.light t.flicker t.integ e.qualify.toNat := by
  have h := flickerStep_steady e { r with
    comp := (match x with
      | .received _ => x.level r
      | _ => r.comp)
    integ := integAfter e r.integ (x.level r)
    light := lightAfter (integAfter e r.integ (x.level r)) e.qualify.toNat r.light } (isCrossing e r x)
  simp only [ChannelRec.steady, ChannelRec.mk.injEq] at h
  unfold ChannelRec.process
  simp only [ChannelRec.withEligibility]
  obtain ⟨h1, h2, h3, h4, h5, -, -, -, -, h10, h11⟩ := h
  exact ⟨h2, h4, h5, h3, h1, h10, h11, trivial, trivial⟩

/-! ## A change of a record, read back -/

theorem channel_changeChannel (s : State) (c j : Nat) (old new : ChannelRec) :
    (s.changeChannel c old new).channel j = (s.setChannel c new).channel j := by
  unfold State.changeChannel
  dsimp only
  split
  · rfl
  · exact State.channel_congr (reportChannel_kept _ _ _).channels j

theorem reportPoint_points (s : State) (p : Nat) (v : PointView) : (s.reportPoint p v).points = s.points :=
  (reportPoint_kept s p v).points

theorem point_changePoint (s : State) (p j : Nat) (old new : PointRec) :
    (s.changePoint p old new).point j = (s.setPoint p new).point j := by
  unfold State.changePoint
  dsimp only
  split
  · rfl
  · exact State.point_congr (reportPoint_points _ _ _) j

/-! ## Orders as a list (R108) -/

theorem order_breaker {s : State} {b : Nat} {o : Order} (h : s.order b = some o) : o.breaker = b := by
  simpa using List.find?_some h

theorem order_mem {s : State} {b : Nat} {o : Order} (h : s.order b = some o) : o ∈ s.trip.orders :=
  List.mem_of_find?_eq_some h

/-- A change of the order on a breaker, read back at any breaker. -/
theorem order_updateOrder (s : State) (b j : Nat) (f : Order → Order) (hf : ∀ o, (f o).breaker = o.breaker) :
    (s.updateOrder b f).order j = if j = b then (s.order b).map f else s.order j := by
  unfold State.order State.updateOrder State.setOrders
  simp only [List.find?_map]
  by_cases hj : j = b
  · subst hj
    have hp : ((fun o : Order => decide (o.breaker = j)) ∘ fun o => if o.breaker = j then f o else o) =
        fun o : Order => decide (o.breaker = j) := by
      funext o
      by_cases h : o.breaker = j <;> simp [h, hf]
    rw [hp]
    simp only [if_true]
    cases h : List.find? (fun o => decide (o.breaker = j)) s.trip.orders with
    | none => rfl
    | some o =>
      have : o.breaker = j := by simpa using List.find?_some h
      simp [this]
  · have hp : ((fun o : Order => decide (o.breaker = j)) ∘ fun o => if o.breaker = b then f o else o) =
        fun o : Order => decide (o.breaker = j) := by
      funext o
      by_cases h : o.breaker = b <;> simp [h, hf]
    rw [hp]
    simp only [hj, if_false]
    cases h : List.find? (fun o => decide (o.breaker = j)) s.trip.orders with
    | none => rfl
    | some o =>
      have : o.breaker = j := by simpa using List.find?_some h
      simp [this, hj]

/-- Changes that keep each order's breaker keep the list of breakers. -/
theorem breakers_updateOrder (s : State) (b : Nat) (f : Order → Order) (hf : ∀ o, (f o).breaker = o.breaker) :
    (s.updateOrder b f).trip.orders.map Order.breaker = s.trip.orders.map Order.breaker := by
  unfold State.updateOrder State.setOrders
  simp only [List.map_map]
  refine List.map_congr_left fun o _ => ?_
  by_cases h : o.breaker = b <;> simp [h, hf]

/-! ## The start of a frame (R5, R8, R23) -/

/-- The orders after the arbiter has started a frame: some waiting copy may have left the queue. -/
theorem startNext_orders (s : State) :
    s.startNext.trip.orders = s.trip.orders ∨
      ∃ f rest, s.loop.tripQ = f :: rest ∧ s.startNext.trip.orders = (s.clearWaiting f.breaker).trip.orders := by
  unfold State.startNext
  split
  · rename_i f rest h
    exact .inr ⟨f, rest, h, rfl⟩
  all_goals exact .inl rfl

/-- With a frame being sent nothing starts. -/
theorem startIfIdle_busy {s : State} (h : s.loop.sending ≠ none) : s.startIfIdle = s := if_neg h

/-! ## An evaluation (R88) -/

theorem sectionRec_askBoundary (s : State) (i j : Nat) (bs : List Nat) :
    (State.askBoundary i bs s).sectionRec j = s.sectionRec j :=
  State.sectionRec_congr (congrArg SectionEvaluator.records (askBoundary_kept i bs s).sections) j

/-- A section that enters TRIPPED, read back at any section (R89). -/
theorem sectionRec_enterTripped (s : State) (i j : Nat) (c : Cause) :
    (s.enterTripped i c).sectionRec j = (s.setSection i { s.sectionRec i with
      state := .tripped, persistence := .stopped, persistentMade := false, unconfirmableMade := false }).sectionRec j := by
  unfold State.enterTripped
  dsimp only
  rw [sectionRec_askBoundary]
  exact State.sectionRec_congr (congrArg SectionEvaluator.records (disturb_kept _).sections) j

theorem sectionRec_beginLight (s : State) (i j : Nat) :
    (s.beginLight i).sectionRec j = (s.setSection i { s.sectionRec i with
      state := .light, persistence := .running Config.persistenceTime, persistentMade := false,
      unconfirmableMade := false }).sectionRec j :=
  State.sectionRec_congr (congrArg SectionEvaluator.records (disturb_kept _).sections) j

/-- The alarm of an unconfirmable light touches its own marker alone (R95). -/
theorem sectionRec_alarmUnconfirmable (s : State) (i j : Nat) :
    (s.alarmUnconfirmable i).sectionRec j = s.sectionRec j ∨
      (s.alarmUnconfirmable i).sectionRec j =
        (s.setSection i { s.sectionRec i with unconfirmableMade := true }).sectionRec j := by
  unfold State.alarmUnconfirmable
  dsimp only
  split
  · exact .inr rfl
  · exact .inl rfl

/-! ## The Event Pool (R180 to R184) -/

/-- The slot numbers of the two chains and of the free list. -/
def EventPool.slots (p : EventPool) : List Nat :=
  p.tripChain.map Slot.number ++ p.generalChain.map Slot.number ++ p.free

/-- Taking a record moves slots between the lists and keeps them all (R180). -/
theorem take_slots (p : EventPool) (time : Word32) (b : RecordBody) : (p.take time b).slots.Perm p.slots := by
  unfold EventPool.take EventPool.slots
  dsimp only
  split
  all_goals (rename_i hf _; simp only [*]; try exact List.Perm.refl _)
  all_goals simp only [List.map_append, List.map_cons, List.map_nil, List.append_assoc]
  all_goals exact List.Perm.append_left _ (by simp [List.perm_middle.symm])

end Sys2Proof.Machine
end

