-- ==== Sys2Proof/Laws/Carry.lean ====
section
/-! SUPPORT. The carry-over at an activation, read back at one entry (R41, R65, R78, R130), and what the refreshed view leaves
alone (R102). -/

namespace Sys2Proof.Machine

/-! Each carry-over writes one field: the rest of the state reads as before. -/

theorem carryNodes_writes (s : State) (old : Tables) : ∃ nodes, s.carryNodes old = { s with nodes := nodes } := ⟨_, rfl⟩

theorem carryChannels_writes (s : State) (old : Tables) : ∃ channels, s.carryChannels old = { s with channels := channels } :=
  ⟨_, rfl⟩

theorem carryPoints_writes (s : State) (old : Tables) : ∃ points, s.carryPoints old = { s with points := points } := ⟨_, rfl⟩

theorem carryBreakers_writes (s : State) (old : Tables) :
    ∃ positions, s.carryBreakers old = { s with trip := { s.trip with positions := positions } } := ⟨_, rfl⟩

/-! The records that they leave, entry by entry. -/

theorem node_carryNodes (s : State) (old : Tables) {n : Nat} (h : n < Config.nodeCount) :
    (s.carryNodes old).node n =
      if nodeKept old s.tables n then s.node n else if s.tables.nodeUsed n then some .absent else none := by
  unfold State.carryNodes
  dsimp only
  simp only [State.node, Vector.getElem?_ofFn, h, dite_true, Option.join_some]

theorem channel_carryChannels (s : State) (old : Tables) {c : Nat} (h : c < Config.channelCount) :
    (s.carryChannels old).channel c =
      if channelUnchanged old s.tables c && nodeKept old s.tables (s.tables.channel c).node.toNat then s.channel c
      else if s.tables.channelUsed c then
        some (.fresh (s.tables.channel c) (if s.nodeLive (s.tables.channel c).node.toNat then .normal else .noData))
      else none := by
  unfold State.carryChannels
  dsimp only
  simp only [State.channel, Vector.getElem?_ofFn, h, dite_true, Option.join_some]

theorem point_carryPoints (s : State) (old : Tables) {p : Nat} (h : p < Config.pointCount) :
    (s.carryPoints old).point p =
      if pointUnchanged old s.tables p && nodeKept old s.tables (s.tables.point p).node.toNat then s.point p
      else if s.tables.pointUsed p then
        some ⟨0, if s.nodeLive (s.tables.point p).node.toNat then .normal else .noData⟩
      else none := by
  unfold State.carryPoints
  dsimp only
  simp only [State.point, Vector.getElem?_ofFn, h, dite_true, Option.join_some]

theorem position_carryBreakers (s : State) (old : Tables) {b : Nat} (h : b < Config.breakerCount) :
    (s.carryBreakers old).position b =
      if breakerKept old s.tables b then s.position b else if s.tables.breakerUsed b then some .unknown else none := by
  unfold State.carryBreakers
  dsimp only
  simp only [State.position, Vector.getElem?_ofFn, h, dite_true, Option.join_some]

/-- What the refreshed view of the Section Evaluator leaves alone (R102). -/
theorem refreshView_same (s : State) :
    s.refreshView.nodes = s.nodes ∧ s.refreshView.channels = s.channels ∧ s.refreshView.points = s.points ∧
      s.refreshView.trip = s.trip ∧ s.refreshView.pool = s.pool ∧ s.refreshView.deviceTime = s.deviceTime ∧
      s.refreshView.loop = s.loop ∧ s.refreshView.agent = s.agent ∧
      s.refreshView.sections.records = s.sections.records := by
  simp only [State.refreshView, and_self]

/-- A node entry keeps its record, spelled out (R41). -/
theorem nodeKept_iff (old new : Tables) (n : Nat) :
    nodeKept old new n = true ↔ old.nodeUsed n = true ∧ new.nodeUsed n = true ∧
      (old.node n).address = (new.node n).address ∧ (old.node n).kind = (new.node n).kind := by
  simp [nodeKept, and_assoc]

end Sys2Proof.Machine
end

