-- ==== Sys2Proof/Laws/Output.lean ====
section
/-! SUPPORT. What trip demands do to the output and to the Event Pool: an evaluation, a report, a processed sample or a new cut set
makes records of its own kinds alone, at the device time as it stands, and leaves the CONTROL and ROUTINE queues alone. -/

namespace Sys2Proof.Machine

/-! ## Queueing behind a frame that is being sent (R22, R23) -/

theorem pushTrip_busy {s : State} (h : s.loop.sending ≠ none) (f : TripFrame) :
    s.pushTrip f = s.setLoop { s.loop with tripQ := s.loop.tripQ ++ [f] } :=
  startIfIdle_busy (s := s.setLoop { s.loop with tripQ := s.loop.tripQ ++ [f] }) h

theorem pushControl_busy {s : State} (h : s.loop.sending ≠ none) (f : ControlFrame) :
    s.pushControl f = s.setLoop { s.loop with controlQ := s.loop.controlQ ++ [f] } :=
  startIfIdle_busy (s := s.setLoop { s.loop with controlQ := s.loop.controlQ ++ [f] }) h

theorem pushRoutine_busy {s : State} (h : s.loop.sending ≠ none) (r : Response) :
    s.pushRoutine r = s.setLoop { s.loop with routineQ := s.loop.routineQ ++ [r] } :=
  startIfIdle_busy (s := s.setLoop { s.loop with routineQ := s.loop.routineQ ++ [r] }) h

/-! ## What trip demands leave alone -/

/-- Records are made at the device time as it stands, each of a kind that `ok` allows; no frame joins or leaves the CONTROL or the
ROUTINE queue, and with a frame being sent none starts. -/
structure OnlyRecords (ok : RecordKind → Prop) (s t : State) : Prop where
  time : t.deviceTime = s.deviceTime
  pool : ∃ made : List RecordBody, t.pool = made.foldl (fun p b => p.take s.deviceTime b) s.pool ∧ ∀ b ∈ made, ok b.kind
  control : t.loop.controlQ = s.loop.controlQ
  routine : t.loop.routineQ = s.loop.routineQ
  busy : s.loop.sending ≠ none → t.loop.sending = s.loop.sending

/-- What trip demands do: no record of theirs is a LENS_RESULT, a FLICKER record or a NODE_LIVE. -/
abbrev OnlyTrips : State → State → Prop :=
  OnlyRecords fun k => k ≠ .lensResult ∧ k ≠ .flickerOn ∧ k ≠ .flickerOff ∧ k ≠ .nodeLive

/-- What processed samples do: FLICKER records as well, and no LENS_RESULT or NODE_LIVE. -/
abbrev OnlySamples : State → State → Prop := OnlyRecords fun k => k ≠ .lensResult ∧ k ≠ .nodeLive

theorem OnlyRecords.refl {ok : RecordKind → Prop} (s : State) : OnlyRecords ok s s := ⟨rfl, ⟨[], rfl, by simp⟩, rfl, rfl, fun _ => rfl⟩

theorem OnlyRecords.trans {ok : RecordKind → Prop} {s t u : State} (h : OnlyRecords ok s t) (k : OnlyRecords ok t u) :
    OnlyRecords ok s u := by
  obtain ⟨m, hm, h'⟩ := h.pool
  obtain ⟨n, hn, k'⟩ := k.pool
  refine ⟨k.time.trans h.time, ⟨m ++ n, ?_, ?_⟩, k.control.trans h.control, k.routine.trans h.routine, fun b => ?_⟩
  · rw [hn, hm, List.foldl_append, h.time]
  · exact fun b hb => (List.mem_append.1 hb).elim (h' b) (k' b)
  · exact (k.busy (h.busy b ▸ b)).trans (h.busy b)

theorem OnlyTrips.toSamples {s t : State} (h : OnlyTrips s t) : OnlySamples s t := by
  obtain ⟨m, hm, h'⟩ := h.pool
  exact ⟨h.time, ⟨m, hm, fun b hb => ⟨(h' b hb).1, (h' b hb).2.2.2⟩⟩, h.control, h.routine, h.busy⟩

/-- A change that touches neither the output, nor the pool, nor device time. -/
theorem OnlyRecords.of_same {ok : RecordKind → Prop} {s t : State} (time : t.deviceTime = s.deviceTime) (pool : t.pool = s.pool)
    (control : t.loop.controlQ = s.loop.controlQ) (routine : t.loop.routineQ = s.loop.routineQ)
    (busy : t.loop.sending = s.loop.sending) : OnlyRecords ok s t :=
  ⟨time, ⟨[], pool, by simp⟩, control, routine, fun _ => busy⟩

theorem record_only {ok : RecordKind → Prop} (s : State) (b : RecordBody) (h : ok b.kind) : OnlyRecords ok s (s.record b) :=
  ⟨rfl, ⟨[b], rfl, by simpa using h⟩, rfl, rfl, fun _ => rfl⟩

theorem record_onlyTrips (s : State) (b : RecordBody)
    (h : b.kind ≠ .lensResult ∧ b.kind ≠ .flickerOn ∧ b.kind ≠ .flickerOff ∧ b.kind ≠ .nodeLive := by
      exact ⟨nofun, nofun, nofun, nofun⟩) :
    OnlyTrips s (s.record b) := record_only s b h

theorem setOrders_onlyTrips (s : State) (os : List Order) : OnlyTrips s (s.setOrders os) := .of_same rfl rfl rfl rfl rfl

theorem updateOrder_onlyTrips (s : State) (b : Nat) (f : Order → Order) : OnlyTrips s (s.updateOrder b f) :=
  setOrders_onlyTrips s _

theorem disturb_onlyTrips (s : State) : OnlyTrips s s.disturb := by
  unfold State.disturb
  split
  · exact .of_same rfl rfl rfl rfl rfl
  · exact .refl s

theorem pushTrip_onlyTrips (s : State) (f : TripFrame) : OnlyTrips s (s.pushTrip f) := by
  have e : s.loop.tripQ ++ [f] ≠ [] := by simp
  have k : (s.pushTrip f).pool = s.pool ∧ (s.pushTrip f).deviceTime = s.deviceTime ∧
      (s.pushTrip f).loop.controlQ = s.loop.controlQ ∧ (s.pushTrip f).loop.routineQ = s.loop.routineQ := by
    unfold State.pushTrip State.startIfIdle State.startNext
    split
    · split
      · exact ⟨rfl, rfl, rfl, rfl⟩
      all_goals exact absurd ‹s.loop.tripQ ++ [f] = []› e
    · exact ⟨rfl, rfl, rfl, rfl⟩
  refine ⟨k.2.1, ⟨[], k.1, by simp⟩, k.2.2.1, k.2.2.2, fun b => ?_⟩
  rw [pushTrip_busy b]
  rfl

/-! ## Trip Dispatcher -/

theorem attemptSend_onlyTrips (s : State) (b : Nat) : OnlyTrips s (s.attemptSend b) := by
  unfold State.attemptSend
  split
  · split
    · exact (updateOrder_onlyTrips s b _).trans (pushTrip_onlyTrips _ _)
    · exact .refl s
  · exact .refl s

theorem driveLine_onlyTrips (s : State) (b : Nat) : OnlyTrips s (s.driveLine b) := by
  unfold State.driveLine
  split
  · split
    · exact .refl s
    · exact .of_same rfl rfl rfl rfl rfl
  · exact .refl s

/-- What is asked for nests in what an operation is given. -/
abbrev AskOnlyTrips (ask : Nat → SectionSet → Nat → State → State) : Prop := ∀ b c d s, OnlyTrips s (ask b c d s)

theorem askBackups_onlyTrips {ask} (h : AskOnlyTrips ask) (b : Nat) (c : SectionSet) (d : Nat) (s : State) :
    OnlyTrips s (s.askBackups ask b c d) :=
  keeps_foldl OnlyRecords.refl OnlyRecords.trans (fun s b' => h b' c (d + 1) s) _ s

theorem markFailed_onlyTrips (s : State) (o : Order) (r : FailReason) : OnlyTrips s (s.markFailed o r) :=
  (updateOrder_onlyTrips s _ _).trans (record_onlyTrips _ _)

theorem escalate_onlyTrips {ask} (h : AskOnlyTrips ask) (o : Order) (s : State) : OnlyTrips s (s.escalate ask o) := by
  unfold State.escalate
  split
  · exact record_onlyTrips s _
  · split
    · exact record_onlyTrips s _
    · exact askBackups_onlyTrips h _ _ _ s

theorem failIfCut_onlyTrips {ask} (h : AskOnlyTrips ask) (b : Nat) (s : State) : OnlyTrips s (s.failIfCut ask b) := by
  unfold State.failIfCut State.failWith
  split
  · split
    · exact (markFailed_onlyTrips s _ _).trans (escalate_onlyTrips h _ _)
    · exact .refl s
  · exact .refl s

theorem createOrder_onlyTrips {ask} (h : AskOnlyTrips ask) (b : Nat) (p : Position) (c : SectionSet) (d : Nat)
    (s : State) : OnlyTrips s (s.createOrder ask b p c d) := by
  have k := ((setOrders_onlyTrips s (s.trip.orders ++ [s.newOrder b p c d])).trans (disturb_onlyTrips _)).trans
    (record_onlyTrips _ (orderRecord .orderIssued (s.newOrder b p c d) (value2 d (s.newOrder b p c d).state.code)))
  unfold State.createOrder
  split
  · exact k
  · exact ((k.trans (attemptSend_onlyTrips _ b)).trans (driveLine_onlyTrips _ b)).trans (failIfCut_onlyTrips h b _)

theorem mergeOrder_onlyTrips {ask} (h : AskOnlyTrips ask) (o : Order) (c : SectionSet) (d : Nat) (s : State) :
    OnlyTrips s (s.mergeOrder ask o c d) := by
  unfold State.mergeOrder
  dsimp only
  split
  · exact (updateOrder_onlyTrips s _ _).trans (askBackups_onlyTrips h _ _ _ _)
  · exact updateOrder_onlyTrips s _ _

theorem askOrder_onlyTrips (fuel : Nat) : AskOnlyTrips (askOrder fuel) := by
  induction fuel with
  | zero => exact fun _ _ _ s => .refl s
  | succ n ih =>
    intro b c d s
    unfold askOrder
    split
    · exact mergeOrder_onlyTrips ih _ c d s
    · exact createOrder_onlyTrips ih b _ c d s
    · exact .refl s

theorem ask_onlyTrips : AskOnlyTrips State.ask := askOrder_onlyTrips _

/-! ## Section Evaluator -/

theorem setSection_onlyTrips (s : State) (i : Nat) (r : SectionRec) : OnlyTrips s (s.setSection i r) :=
  .of_same rfl rfl rfl rfl rfl

theorem enterTripped_onlyTrips (s : State) (i : Nat) (c : Cause) : OnlyTrips s (s.enterTripped i c) := by
  refine (setSection_onlyTrips s i { s.sectionRec i with
    state := .tripped, persistence := .stopped, persistentMade := false, unconfirmableMade := false }).trans ?_
  exact ((disturb_onlyTrips _).trans (record_onlyTrips _ _)).trans
    (keeps_foldl OnlyRecords.refl OnlyRecords.trans (fun s b => ask_onlyTrips b _ 0 s) _ _)

theorem alarmUnconfirmable_onlyTrips (s : State) (i : Nat) : OnlyTrips s (s.alarmUnconfirmable i) := by
  unfold State.alarmUnconfirmable
  dsimp only
  split
  · exact (record_onlyTrips s _).trans (setSection_onlyTrips _ i _)
  · exact .refl s

theorem beginLight_onlyTrips (s : State) (i : Nat) : OnlyTrips s (s.beginLight i) :=
  (setSection_onlyTrips s i _).trans (disturb_onlyTrips _)

theorem evaluate_onlyTrips (s : State) (i : Nat) (c : Cause) : OnlyTrips s (s.evaluate i c) := by
  unfold State.evaluate
  split
  · exact enterTripped_onlyTrips s i c
  · split
    · split
      · exact alarmUnconfirmable_onlyTrips s i
      · exact (beginLight_onlyTrips s i).trans (alarmUnconfirmable_onlyTrips _ i)
    · exact setSection_onlyTrips s i _

theorem reportTo_onlyTrips (s : State) (i : Nat) (c : Cause) : OnlyTrips s (s.reportTo i c) := by
  unfold State.reportTo
  split
  · exact evaluate_onlyTrips s i c
  · exact .refl s

theorem reportChannel_onlyTrips (s : State) (c : Nat) (v : ChannelView) : OnlyTrips s (s.reportChannel c v) := by
  have k : OnlyTrips s (s.setChannelView c v) := .of_same rfl rfl rfl rfl rfl
  unfold State.reportChannel
  dsimp only
  split
  · exact k.trans (reportTo_onlyTrips _ _ _)
  · exact k

/-! ## Light Qualifier -/

theorem changeChannel_onlyTrips (s : State) (c : Nat) (old new : ChannelRec) : OnlyTrips s (s.changeChannel c old new) := by
  have k : OnlyTrips s (s.setChannel c new) := .of_same rfl rfl rfl rfl rfl
  unfold State.changeChannel
  dsimp only
  split
  · exact k
  · exact k.trans (reportChannel_onlyTrips _ _ _)

theorem flickerRecord_onlySamples (s : State) (c : Nat) (e : FlickerEvent) : OnlySamples s (s.flickerRecord c e) := by
  cases e
  · exact .refl s
  · exact record_only s _ ⟨nofun, nofun⟩
  · exact record_only s _ ⟨nofun, nofun⟩

theorem processSample_onlySamples (s : State) (c : Nat) (x : Sample) : OnlySamples s (s.processSample c x) := by
  unfold State.processSample
  split
  · exact .refl s
  · exact ((flickerRecord_onlySamples s c _).trans (flickerRecord_onlySamples _ c _)).trans
      (OnlyTrips.toSamples (changeChannel_onlyTrips _ c _ _))

theorem startTesting_onlyTrips (s : State) (c : Nat) : OnlyTrips s (s.startTesting c) := by
  unfold State.startTesting
  split
  · exact changeChannel_onlyTrips s c _ _
  · exact .refl s

theorem leaveTesting_onlySamples (s : State) (c : Nat) (a : Option Nat) : OnlySamples s (s.leaveTesting c a) := by
  have change : ∀ old new, OnlySamples s (s.changeChannel c old new) :=
    fun old new => OnlyTrips.toSamples (changeChannel_onlyTrips s c old new)
  unfold State.leaveTesting
  split
  · split
    · exact .refl s
    · split
      · dsimp only
        split
        · exact (change _ _).trans (processSample_onlySamples _ c _)
        · exact change _ _
      · exact change _ _
  · exact .refl s

/-! ## Sections recomputed, points, positions and the cut set -/

theorem recompute_onlyTrips (s : State) (i : Nat) : OnlyTrips s (s.recompute i) := by
  unfold State.recompute
  dsimp only
  split
  · exact setSection_onlyTrips s i _
  · split
    · exact setSection_onlyTrips s i _
    · split
      · exact setSection_onlyTrips s i _
      · exact (setSection_onlyTrips s i _).trans (evaluate_onlyTrips _ i _)

theorem reportPoint_onlyTrips (s : State) (p : Nat) (v : PointView) : OnlyTrips s (s.reportPoint p v) := by
  have k : OnlyTrips s (s.setPointView p v) := .of_same rfl rfl rfl rfl rfl
  refine k.trans (keeps_foldl OnlyRecords.refl OnlyRecords.trans (fun s i => ?_) _ _)
  split
  · exact reportTo_onlyTrips s i _
  · exact .refl s

theorem changePoint_onlyTrips (s : State) (p : Nat) (old new : PointRec) : OnlyTrips s (s.changePoint p old new) := by
  have k : OnlyTrips s (s.setPoint p new) := .of_same rfl rfl rfl rfl rfl
  unfold State.changePoint
  dsimp only
  split
  · exact k
  · exact k.trans (reportPoint_onlyTrips _ _ _)

theorem channelStale_onlyTrips (s : State) (c : Nat) : OnlyTrips s (s.channelStale c) := by
  unfold State.channelStale
  split
  · exact changeChannel_onlyTrips s c _ _
  · exact .refl s

theorem pointStale_onlyTrips (s : State) (p : Nat) : OnlyTrips s (s.pointStale p) := by
  unfold State.pointStale
  split
  · exact changePoint_onlyTrips s p _ _
  · exact .refl s

theorem positionUnknown_onlyTrips (s : State) (b : Nat) : OnlyTrips s (s.positionUnknown b) := by
  unfold State.positionUnknown
  split
  · exact .of_same rfl rfl rfl rfl rfl
  · exact .refl s

theorem enterCut_onlyTrips (s : State) (b : Nat) : OnlyTrips s (s.enterCut b) := by
  unfold State.enterCut
  split
  · split
    · exact failIfCut_onlyTrips ask_onlyTrips b s
    · exact .refl s
  · exact .refl s

theorem withdrawTrip_onlyTrips (s : State) (b : Nat) : OnlyTrips s (s.withdrawTrip b) := .of_same rfl rfl rfl rfl rfl

/-- A recomputation of the break position and the cut set (R20, R21). -/
theorem recomputeCut_onlyTrips (s : State) : OnlyTrips s s.recomputeCut := by
  have k : OnlyTrips s (s.setLoop { s.loop with
    breakPos := some s.breakPosition, cutSet := s.cutSetAt s.breakPosition }) := .of_same rfl rfl rfl rfl rfl
  exact (k.trans (keeps_foldl OnlyRecords.refl OnlyRecords.trans enterCut_onlyTrips _ _)).trans
    (keeps_foldl OnlyRecords.refl OnlyRecords.trans withdrawTrip_onlyTrips _ _)

end Sys2Proof.Machine
end

