-- ==== Sys2Proof/Laws/Endings.lean ====
section
/-! SUPPORT. What a held order does to its trip line, what an attempt to send a TRIP frame leaves, and what the ending of a lens test
leaves, in the terms of the statements. -/

namespace Sys2Proof.Machine

open Sys2Proof.Safety

/-! ## Trip Dispatcher: the trip line of a held order -/

/-- The line of an order that becomes held (R124). -/
theorem driveLine_driven (s : State) (b : Nat) : LineDriven s (s.driveLine b) b := by
  intro l hl
  unfold State.driveLine
  cases h : s.lineOf b with
  | none => simp
  | some m =>
    dsimp only
    refine ⟨fun e ha => ?_, fun e => ?_⟩
    · cases e
      rw [if_neg (by simp [ha]), State.line_setLine, if_pos ⟨rfl, hl⟩]
    · split
      · rfl
      · rename_i inactive
        rw [State.line_setLine]
        split
        · rename_i same
          rw [same.1] at inactive
          exact absurd e (by simp [same.1, inactive])
        · rfl

/-! ## Trip Dispatcher: the attempt to send -/

/-- At an idle output with nothing queued a TRIP frame starts at once (R23). -/
theorem pushTrip_idle {s : State} (h : s.loop.sending = none) (hq : s.loop.tripQ = []) (f : TripFrame) :
    s.pushTrip f = (s.setLoop { s.loop with
      sending := some ⟨.trip f, s.loop.outSeq⟩, outSeq := s.loop.outSeq + 1 }).clearWaiting f.breaker := by
  have e : s.pushTrip f = (s.setLoop { s.loop with tripQ := s.loop.tripQ ++ [f] }).startNext := if_pos h
  rw [e]
  unfold State.startNext
  simp [State.setLoop, hq, LoopPort.start]

/-- At an idle output some frame of the TRIP queue starts, and its order loses its waiting copy (R23, R114). -/
theorem pushTrip_starts {s : State} (h : s.loop.sending = none) (f : TripFrame) :
    ∃ l b, s.pushTrip f = (s.setLoop l).clearWaiting b := by
  have e : s.pushTrip f = (s.setLoop { s.loop with tripQ := s.loop.tripQ ++ [f] }).startNext := if_pos h
  rw [e]
  unfold State.startNext
  cases hq : s.loop.tripQ with
  | nil => exact ⟨_, f.breaker, rfl⟩
  | cons g rest => exact ⟨_, g.breaker, rfl⟩

/-- A waiting copy that is cleared, read back on a breaker whose order is known. -/
theorem order_clearWaiting {s : State} {b : Nat} {o : Order} (b' : Nat) (h : s.order b = some o) :
    (s.clearWaiting b').order b = some { o with waiting := if b = b' then false else o.waiting } := by
  unfold State.clearWaiting
  rw [order_updateOrder s b' b (fun o => { o with waiting := false }) fun _ => rfl]
  split <;> rename_i e
  · rw [← e, h]; rfl
  · exact h

/-- An attempt to send for an unopened order (R114): its TRIP frame and its waiting copy; the breakers that have an order, the trip
lines and the Event Pool stand. -/
theorem attemptSend_attempted (s : State) (b : Nat) (o : Order) (ho : s.order b = some o) (hu : o.unopened = true) :
    ∃ copy, (s.attemptSend b).order b = some { o with waiting := copy } ∧
      SendAttempted s b o.depth o.ageMs o.waiting (s.attemptSend b).loop copy ∧
      (s.attemptSend b).trip.orders.map Order.breaker = s.trip.orders.map Order.breaker ∧
      (s.attemptSend b).pool = s.pool ∧ (s.attemptSend b).trip.lines = s.trip.lines := by
  have hb := order_breaker ho
  unfold State.attemptSend
  rw [ho]
  cases hn : (s.tables.breaker b).nodeOf with
  | none => exact ⟨o.waiting, ho, ⟨fun n h => by simp [hn] at h, fun _ => ⟨rfl, rfl⟩⟩, rfl, rfl, rfl⟩
  | some n =>
    dsimp only
    split <;> rename_i h
    · simp only [hu, State.tripRoom, Config.tripCapacity, Bool.true_and, Bool.and_eq_true, Bool.not_eq_true',
        decide_eq_true_eq] at h
      set v := s.updateOrder b fun o => { o with waiting := true } with hv
      have vo : v.order b = some { o with waiting := true } := by
        rw [hv, order_updateOrder s b b (fun o => { o with waiting := true }) fun _ => rfl, if_pos rfl, ho]; rfl
      have vl : v.trip.orders.map Order.breaker = s.trip.orders.map Order.breaker :=
        breakers_updateOrder s b (fun o => { o with waiting := true }) fun _ => rfl
      have open_ : ¬ ((s.tables.breaker b).nodeOf = none ∨ s.isCut b = true ∨ o.waiting = true ∨
          16 ≤ s.loop.tripQ.length) := by
        rintro (k | k | k | k)
        · simp [hn] at k
        · simp [k] at h
        · simp [k] at h
        · omega
      by_cases hs : s.loop.sending = none
      · by_cases hq : s.loop.tripQ = []
        · rw [pushTrip_idle (s := v) hs hq]
          refine ⟨false, ?_, ⟨fun n' k _ _ _ => ⟨fun k => absurd hs k, fun _ _ => ⟨?_, rfl⟩⟩, fun k => absurd k open_⟩,
            ?_, rfl, rfl⟩
          · have := order_clearWaiting (s := v.setLoop { v.loop with
              sending := some ⟨.trip (s.tripFrame o n), v.loop.outSeq⟩, outSeq := v.loop.outSeq + 1 }) (o := { o with waiting := true }) o.breaker vo
            rw [if_pos hb.symm] at this
            exact this
          · obtain rfl : n = n' := by simpa [hn] using k
            simp [State.clearWaiting, State.updateOrder, State.setOrders, State.setLoop, State.tripFrame, hb, hv]
          · exact (breakers_updateOrder _ _ (fun o => { o with waiting := false }) fun _ => rfl).trans vl
        · obtain ⟨l, b', e⟩ := pushTrip_starts (s := v) hs (s.tripFrame o n)
          rw [e]
          refine ⟨_, (order_clearWaiting (s := v.setLoop l) (o := { o with waiting := true }) b' vo),
            ⟨fun n' k _ _ _ => ⟨fun k => absurd hs k, fun _ k => absurd k hq⟩, fun k => absurd k open_⟩, ?_, rfl, rfl⟩
          exact (breakers_updateOrder _ _ (fun o => { o with waiting := false }) fun _ => rfl).trans vl
      · rw [pushTrip_busy (s := v) hs]
        refine ⟨true, vo, ⟨fun n' k _ _ _ => ⟨fun _ => ⟨?_, rfl⟩, fun k => absurd k hs⟩, fun k => absurd k open_⟩, vl,
          rfl, rfl⟩
        obtain rfl : n = n' := by simpa [hn] using k
        simp [State.setLoop, State.tripFrame, hb, hv, State.updateOrder, State.setOrders]
    · refine ⟨o.waiting, ho, ⟨fun n' _ k2 k3 k4 => absurd ?_ h, fun _ => ⟨rfl, rfl⟩⟩, rfl, rfl, rfl⟩
      simp [hu, k2, k3, State.tripRoom, Config.tripCapacity, k4]

/-! ## Lens Check Engine: the ending of a test -/

/-- A write of a channel that has a record, read back. -/
theorem channel_setChannel_of_some {s : State} {c : Nat} {r0 : ChannelRec} (h : s.channel c = some r0) (j : Nat)
    (r : ChannelRec) : (s.setChannel c r).channel j = if j = c then some r else s.channel j := by
  have hlt : c < Config.channelCount := by
    by_contra hh
    simp [State.channel, Vector.getElem?_eq_none (Nat.not_lt.mp hh)] at h
  rw [State.channel_setChannel]
  by_cases e : c = j
  · subst e; simp [hlt]
  · simp [e, Ne.symm e]

/-- One processed sample of a channel that has a record, read back. -/
theorem channel_processSample {s : State} {c : Nat} {r : ChannelRec} (h : s.channel c = some r) (j : Nat) (x : Sample) :
    (s.processSample c x).channel j =
      if j = c then some (ChannelRec.process (s.tables.channel c) r x).1 else s.channel j := by
  have k : ∀ x y, ((s.flickerRecord c x).flickerRecord c y).channels = s.channels :=
    fun x y => ((flickerRecord_kept s c x).trans (flickerRecord_kept _ c y)).channels
  unfold State.processSample
  rw [h]
  dsimp only
  rw [channel_changeChannel, channel_setChannel_of_some ((State.channel_congr (k _ _) c).trans h),
    State.channel_congr (k _ _) j]
  rfl

/-- Neither the TEST(off) frame nor the engine's return to IDLE touches the channels, the Event Pool, or peak and count. -/
theorem putOutLamp_same (s : State) (c : Nat) :
    (s.putOutLamp c).channels = s.channels ∧ (s.putOutLamp c).pool = s.pool ∧
      (s.putOutLamp c).lens.peak = s.lens.peak ∧ (s.putOutLamp c).lens.count = s.lens.count := by
  unfold State.putOutLamp State.offerTest State.pushControl State.startIfIdle State.startNext
  repeat' split
  all_goals exact ⟨rfl, rfl, rfl, rfl⟩

/-- Where a TEST frame goes while a frame is being sent (R136). -/
theorem offerTest_busy {s : State} (h : Busy s) (f : TestFrame) :
    (s.lens.held = [] → s.loop.controlQ.length < 4 →
      s.offerTest f = s.setLoop { s.loop with controlQ := s.loop.controlQ ++ [.test f] }) ∧
    ((s.lens.held ≠ [] ∨ 4 ≤ s.loop.controlQ.length) →
      s.offerTest f = s.setLens { s.lens with held := s.lens.held ++ [f] }) := by
  unfold State.offerTest
  refine ⟨fun h0 hq => ?_, fun h0 => if_neg ?_⟩
  · rw [if_pos ⟨h0, by simp [State.controlRoom, hq]⟩, pushControl_busy h]
  · rintro ⟨x, y⟩
    simp only [State.controlRoom, Config.controlCapacity, decide_eq_true_eq] at y
    rcases h0 with h0 | h0
    · exact h0 x
    · omega

/-- The LENS_RESULT record of an ending, written out (R146, R194). -/
theorem lensRecord_eq {s : State} {c : Nat} {r : ChannelRec} (h : s.channel c = some r) (result : LensResult) :
    s.lensRecord c result =
      { kind := .lensResult, category := if result = .done ∨ result = .abortedLight then .notice else .alarm,
        channel := some c, node := some (s.tables.channel c).node.toNat, sect := (s.tables.channel c).sectOf,
        value := some (BitVec.ofNat 32 ((match result with
          | .done => 1 | .dirty => 2 | .blocked => 3 | .noResponse => 4 | .abortedLight => 5) * 2 ^ 24 +
            s.lens.peak * 2 ^ 12 + r.gain)) } := by
  unfold State.lensRecord
  rw [h]
  cases result <;> rfl

/-- The ending of a test of a channel whose node is LIVE (R142, R146). -/
theorem endTest_ends (s : State) (c : Nat) (r : ChannelRec) (result : LensResult) (a : Option Nat)
    (hr : s.channel c = some r) (hl : s.nodeLive (s.tables.channel c).node.toNat = true) :
    TestEnds s (s.endTest c result a) c s.lens.peak s.lens.count r.gain result := by
  have only := leaveTesting_onlySamples (s.record (s.lensRecord c result)) c a
  have kept := (record_kept s (s.lensRecord c result)).toKeptBySections.toKeptByLight.trans (leaveTesting_kept _ c a)
  rw [lensRecord_eq hr] at only kept
  unfold State.endTest
  rw [lensRecord_eq hr]
  set u := State.leaveTesting _ c a with hu
  have lens : u.lens = s.lens := kept.lens
  have tables : u.tables = s.tables := kept.active
  obtain ⟨-, samePool, samePeak, sameCount⟩ := putOutLamp_same u c
  refine ⟨rfl, rfl, rfl, samePeak.trans (congrArg _ lens), sameCount.trans (congrArg _ lens), ?_, fun hb => ?_⟩
  · obtain ⟨made, hm, hk⟩ := only.pool
    exact ⟨made, samePool.trans hm, fun b hb => (hk b hb).1⟩
  have b1 := only.busy hb
  have b2 : u.loop.controlQ = s.loop.controlQ := only.control
  refine ⟨fun ⟨f, hf, ho⟩ => ?_, fun hf => ?_⟩
  · have on : u.lens.holdsOn = true := by rw [lens]; exact List.any_eq_true.2 ⟨f, hf, ho⟩
    unfold State.putOutLamp
    rw [if_pos on]
    exact ⟨b2, by simp [State.idleLens, State.setLens, lens]⟩
  · have on : ¬ u.lens.holdsOn = true := by
      rw [lens]
      intro h
      obtain ⟨f, h1, h2⟩ := List.any_eq_true.1 h
      simp [hf f h1] at h2
    have entry : u.channelEntry c = s.tables.channel c := congrArg (fun t => t.channel c) tables
    have live : u.nodeLive (u.channelEntry c).node.toNat = true := by
      rw [entry, ← hl]
      unfold State.nodeLive
      rw [State.node_congr kept.nodes]
    have e : u.putOutLamp c = u.offerTest (u.testFrame c false) := by
      unfold State.putOutLamp
      rw [if_neg on]
      unfold State.nodeLive at live
      split
      · rename_i h; rw [h] at live; simp at live
      · rfl
    have frame : u.testFrame c false =
        ⟨(s.tables.node (s.tables.channel c).node.toNat).address, (s.tables.channel c).number, false⟩ := by
      unfold State.testFrame
      rw [entry, tables]
    have offered := offerTest_busy (s := u) (by unfold Busy; rw [b1]; exact hb) (u.testFrame c false)
    rw [lens, b2, ← e, frame] at offered
    refine ⟨fun h0 hq => ?_, fun h0 => ?_⟩
    · rw [offered.1 h0 hq]
      exact ⟨rfl, by simp [State.idleLens, State.setLens, State.setLoop, lens, h0]⟩
    · rw [offered.2 h0]
      exact ⟨b2, rfl⟩

/-- An ending returns a TESTING channel to its standing, and processes the sample that aborted the test (R142); no other channel
changes. -/
theorem channel_endTest (s : State) (c j : Nat) (r : ChannelRec) (result : LensResult) (a : Option Nat)
    (hr : s.channel c = some r) (hc : r.cond = .testing) (hl : s.nodeLive (s.tables.channel c).node.toNat = true) :
    let left : ChannelRec := { r with cond := r.standing.cond }
    (s.endTest c result a).channel j = if j = c then some (match a with
      | none => left
      | some level => (ChannelRec.process (s.tables.channel c) left (.received level)).1) else s.channel j := by
  intro left
  refine (State.channel_congr (putOutLamp_same _ c).1 j).trans ?_
  set v := s.record (s.lensRecord c result) with hv
  have hvr : v.channel c = some r := hr
  have one : ∀ i, (v.changeChannel c r left).channel i = if i = c then some left else s.channel i := fun i => by
    rw [channel_changeChannel, channel_setChannel_of_some hvr]; rfl
  unfold State.leaveTesting
  rw [hvr]
  dsimp only
  rw [if_neg (by simp [hc]), if_pos (show v.nodeLive (v.channelEntry c).node.toNat = true from hl)]
  cases a with
  | none => exact one j
  | some level =>
    dsimp only
    rw [channel_processSample (s := v.changeChannel c r left) (r := left) (by rw [one, if_pos rfl]) j,
      show (v.changeChannel c r left).tables = s.tables from (changeChannel_kept v c r left).active, one]
    split <;> rfl

end Sys2Proof.Machine
end

