-- ==== Sys2Proof/Laws/KeptByEvents.lean ====
section
/-! SUPPORT. What the events of the Loop Port, of Node Admission and of the Management Agent leave as it stands, and the queue of
waiting commands, which every command leaves alone. -/

namespace Sys2Proof.Machine

/-- Kept by the events of the Loop Port: they change its own state, the orders and lines, the held TEST frames, the held responses,
the disturbed marker and the Event Pool. -/
structure KeptByLoop (s t : State) : Prop where
  active     : t.agent.active = s.agent.active
  shadow     : t.agent.shadow = s.agent.shadow
  mode       : t.agent.mode = s.agent.mode
  state      : t.agent.state = s.agent.state
  activation : t.agent.activation = s.agent.activation
  reset      : t.agent.softResetPending = s.agent.softResetPending
  store      : t.store = s.store
  supply     : t.supply = s.supply
  deviceTime : t.deviceTime = s.deviceTime
  hardReset  : t.hardReset = s.hardReset
  pending    : t.pending = s.pending
  nodes      : t.nodes = s.nodes
  channels   : t.channels = s.channels
  points     : t.points = s.points
  sections   : t.sections = s.sections
  positions  : t.trip.positions = s.trip.positions
  draws      : t.draws = s.draws
  lens       : { t.lens with held := [] } = { s.lens with held := [] }

theorem KeptByLoop.trans {s t u : State} (h : KeptByLoop s t) (k : KeptByLoop t u) : KeptByLoop s u :=
  ⟨k.1.trans h.1, k.2.trans h.2, k.3.trans h.3, k.4.trans h.4, k.5.trans h.5, k.6.trans h.6, k.7.trans h.7, k.8.trans h.8,
   k.9.trans h.9, k.10.trans h.10, k.11.trans h.11, k.12.trans h.12, k.13.trans h.13, k.14.trans h.14, k.15.trans h.15,
   k.16.trans h.16, k.17.trans h.17, k.18.trans h.18⟩

theorem KeptByOrders.toLoop {s t : State} (h : KeptByOrders s t) : KeptByLoop s t :=
  ⟨h.active, h.shadow, h.mode, h.state, h.activation, h.reset, h.store, h.supply, h.deviceTime, h.hardReset, h.pending,
   h.nodes, h.channels, h.points, h.sections, h.positions, h.draws, by rw [h.lens]⟩

theorem KeptByLoop.refl (s : State) : KeptByLoop s s := (KeptByOrders.refl s).toLoop

/-! ## Loop Port -/

theorem setLoop_keptByLoop (s : State) (l : LoopPort) : KeptByLoop s (s.setLoop l) := by constructor <;> rfl

theorem queueWaitingClaim_kept (s : State) : KeptByLoop s s.queueWaitingClaim := by
  unfold State.queueWaitingClaim
  split
  · exact (setLoop_keptByLoop s _).trans (pushControl_kept _ _).toLoop
  · exact .refl s

theorem offerHeldTests_kept (s : State) (n : Nat) : KeptByLoop s (s.offerHeldTests n) := by
  induction n generalizing s with
  | zero => exact .refl s
  | succ n ih =>
    unfold State.offerHeldTests
    split
    · exact .refl s
    · split
      · refine KeptByLoop.trans (t := s.setLens { s.lens with held := _ }) ?_
          ((pushControl_kept _ _).toLoop.trans (ih _))
        constructor <;> rfl
      · exact .refl s

theorem queueHeldTests_kept (s : State) : KeptByLoop s s.queueHeldTests := by
  unfold State.queueHeldTests
  split
  · exact .refl s
  · exact offerHeldTests_kept s _

theorem offerHeldResponses_kept (s : State) (n : Nat) : KeptByLoop s (s.offerHeldResponses n) := by
  induction n generalizing s with
  | zero => exact .refl s
  | succ n ih =>
    unfold State.offerHeldResponses
    split
    · exact .refl s
    · split
      · refine KeptByLoop.trans (t := { s with agent := { s.agent with held := _ } }) ?_
          ((pushRoutine_kept _ _).toLoop.trans (ih _))
        constructor <;> rfl
      · exact .refl s

theorem tellControlRoom_kept (s : State) : KeptByLoop s s.tellControlRoom :=
  (queueWaitingClaim_kept s).trans (queueHeldTests_kept _)

theorem settleRoom_kept (s : State) : KeptByLoop s s.settleRoom :=
  (tellControlRoom_kept s).trans (offerHeldResponses_kept _ _)

theorem enterClaiming_kept (s : State) : KeptByLoop s s.enterClaiming :=
  (setLoop_keptByLoop s _).trans (queueWaitingClaim_kept _)

theorem claimReturns_kept (s : State) (seq : Byte) (p : List Byte) : KeptByLoop s (s.claimReturns seq p) := by
  unfold State.claimReturns
  split
  · exact .refl s
  · split
    · exact ((setLoop_keptByLoop s _).trans (record_kept _ _).toLoop).trans (setLoop_keptByLoop _ _)
    · exact .refl s

theorem recomputeCut_kept (s : State) : KeptByLoop s s.recomputeCut :=
  ((setLoop_keptByLoop s _).trans
    (keeps_foldl KeptByOrders.refl KeptByOrders.trans enterCut_kept _ _).toLoop).trans
    (keeps_foldl KeptByOrders.refl KeptByOrders.trans withdrawTrip_kept _ _).toLoop

theorem queueOrSkip_kept (s : State) (f : ControlFrame) : KeptByOrders s (s.queueOrSkip f) := by
  unfold State.queueOrSkip
  split
  · exact pushControl_kept s f
  · exact .refl s

theorem enterOpen_kept (s : State) (c : OpenCause) : KeptByLoop s (s.enterOpen c) :=
  (((((setLoop_keptByLoop s _).trans (tellControlRoom_kept _)).trans (recomputeCut_kept _)).trans (record_kept _ _).toLoop).trans
    (queueOrSkip_kept _ _).toLoop).trans (setLoop_keptByLoop _ _)

theorem supervisionReturns_kept (s : State) : KeptByLoop s s.supervisionReturns := by
  unfold State.supervisionReturns
  split
  · exact setLoop_keptByLoop s _
  · exact .refl s

theorem beaconReturns_kept (s : State) : KeptByLoop s s.beaconReturns := by
  unfold State.beaconReturns
  split
  · exact (enterClaiming_kept s).trans (settleRoom_kept _)
  · exact .refl s

theorem claimExpiry_kept (s : State) : KeptByLoop s s.claimExpiry := by
  unfold State.claimExpiry
  split
  · exact enterOpen_kept s _
  · exact .refl s

theorem supervisionExpiry_kept (s : State) : KeptByLoop s s.supervisionExpiry := by
  unfold State.supervisionExpiry
  split
  · exact enterOpen_kept s _
  · exact .refl s

theorem supervisionSendExpiry_kept (s : State) : KeptByLoop s s.supervisionSendExpiry := by
  unfold State.supervisionSendExpiry
  split
  · exact (setLoop_keptByLoop s _).trans (queueOrSkip_kept _ _).toLoop
  · exact .refl s

theorem beaconExpiry_kept (s : State) : KeptByLoop s s.beaconExpiry := by
  unfold State.beaconExpiry
  split
  · exact (setLoop_keptByLoop s _).trans (queueOrSkip_kept _ _).toLoop
  · exact .refl s

theorem loopActivation_kept (s : State) : KeptByLoop s s.loopActivation := by
  unfold State.loopActivation
  split
  · dsimp only
    split
    · exact setLoop_keptByLoop s _
    · exact (setLoop_keptByLoop s _).trans (record_kept _ _).toLoop
  · exact recomputeCut_kept s
  · exact .refl s

theorem claimSent_kept (s : State) (x : Sending) : KeptByLoop s (s.claimSent x) := by
  unfold State.claimSent
  split
  · exact setLoop_keptByLoop s _
  · exact .refl s

/-! ## Node Admission -/

theorem setNode_kept (s : State) (n : Nat) (r : NodeRec) : Kept s (s.setNode n r) := by constructor <;> rfl

theorem recomputeCut_keeps (s : State) : Kept s s.recomputeCut :=
  (Kept.trans (t := s.setLoop _) (by constructor <;> rfl)
    (keeps_foldl KeptByOrders.refl KeptByOrders.trans enterCut_kept _ _).toKept).trans
    (keeps_foldl KeptByOrders.refl KeptByOrders.trans withdrawTrip_kept _ _).toKept

theorem setPosition_kept (s : State) (b : Nat) (p : Position) : Kept s (s.setPosition b p) := by constructor <;> rfl

theorem positionUnknown_kept (s : State) (b : Nat) : Kept s (s.positionUnknown b) := by
  unfold State.positionUnknown
  split
  · exact setPosition_kept s b _
  · exact .refl s

theorem deliverPosition_kept (s : State) (b : Nat) (p : Position) : Kept s (s.deliverPosition b p) := by
  unfold State.deliverPosition
  split
  · exact .refl s
  · split
    · exact .refl s
    · exact ((setPosition_kept s b p).trans (record_kept _ _).toKept).trans (orderSeesPosition_kept _ b p).toKept

theorem tellStale_kept (n : Nat) (s : State) : Kept s (State.tellStale n s) := by
  unfold State.tellStale
  exact (((keeps_foldl Kept.refl Kept.trans (fun s c => (channelStale_kept s c).toKept) (s.channelsOfNode n) s).trans
    (keeps_foldl Kept.refl Kept.trans (fun s p => (pointStale_kept s p).toKept) _ _)).trans
    (keeps_foldl Kept.refl Kept.trans positionUnknown_kept _ _)).trans (lensNodeStale_kept _ n).toKept

theorem tellLive_kept (n : Nat) (s : State) : Kept s (State.tellLive n s) :=
  (keeps_foldl Kept.refl Kept.trans (fun s c => (channelLive_kept s c).toKept) _ s).trans
    (keeps_foldl Kept.refl Kept.trans (fun s p => (pointLive_kept s p).toKept) _ _)

theorem tellNeighbours_kept {tell : State → State} (h : ∀ s, Kept s (tell s)) (s : State) :
    Kept s (s.tellNeighbours tell) := by
  unfold State.tellNeighbours
  split
  · have d : Kept s { s with draws := s.draws + 1 } := by constructor <;> rfl
    dsimp only
    split
    · exact (d.trans (recomputeCut_keeps _)).trans (h _)
    · exact (d.trans (h _)).trans (recomputeCut_keeps _)
  · exact h s

theorem becomeLive_kept (s : State) (n : Nat) (r : NodeRec) (seq : Byte) : Kept s (s.becomeLive n r seq) :=
  (((setNode_kept s n _).trans (record_kept _ _).toKept).trans (tellNeighbours_kept (tellLive_kept n) _)).trans
    (setNode_kept _ n _)

theorem stayLive_kept (s : State) (n : Nat) (seq : Byte) (d : Nat) : Kept s (s.stayLive n seq d) := by
  unfold State.stayLive
  dsimp only
  split
  · exact (setNode_kept s n _).trans (record_kept _ _).toKept
  · exact setNode_kept s n _

theorem deliverAll_keeps {R : State → State → Prop} (hr : ∀ s, R s s) (ht : ∀ {s t u}, R s t → R t u → R s u)
    {at' : State → Nat → Option Nat} {f : State → Nat → α → State} (hf : ∀ s i x, R s (f s i x)) (k : Nat)
    (xs : List α) (s : State) : R s (deliverAll at' f k xs s) := by
  induction xs generalizing k s with
  | nil => exact hr s
  | cons x xs ih =>
    unfold deliverAll
    refine ht ?_ (ih _ _)
    split
    · exact hf _ _ _
    · exact hr s

theorem deliver_kept (s : State) (n gap : Nat) (c : Contents) : Kept s (s.deliver n gap c) := by
  cases c
  · exact deliverAll_keeps Kept.refl Kept.trans (fun s c x => (deliverLight_kept s c _ _ _).toKept) _ _ s
  · exact deliverAll_keeps Kept.refl Kept.trans (fun s p x => (deliverPoint_kept s p _ x).toKept) _ _ s
  · exact deliverAll_keeps Kept.refl Kept.trans (fun s b x => deliverPosition_kept s b x) _ _ s

theorem acceptFrame_kept (s : State) (n : Nat) (r : NodeRec) (seq : Byte) (c : Contents) :
    Kept s (s.acceptFrame n r seq c) := by
  unfold State.acceptFrame
  split
  · dsimp only
    split
    · exact .refl s
    · exact (stayLive_kept s n seq _).trans (deliver_kept _ n _ c)
  · exact (becomeLive_kept s n r seq).trans (deliver_kept _ n 0 c)

theorem nodeFrame_kept (s : State) (k : NodeKind) (source seq : Byte) (p : List Byte) :
    Kept s (s.nodeFrame k source seq p) := by
  unfold State.nodeFrame
  split
  · exact .refl s
  · split
    · exact .refl s
    · split
      · exact .refl s
      · exact acceptFrame_kept s _ _ seq _

/-- A frame that Node Admission discards changes nothing (R27, R28, R33). -/
theorem nodeFrame_of_discarded {s : State} {k : NodeKind} {source seq : Byte} {p : List Byte}
    (h : s.acceptedFrame k source seq p = none) : s.nodeFrame k source seq p = s := by
  unfold State.acceptedFrame at h
  unfold State.nodeFrame
  by_cases h0 : source = 0
  · rw [if_pos h0]
  · rw [if_neg h0] at h ⊢
    cases ha : s.admission k source p with
    | none => rfl
    | some x =>
      obtain ⟨n, c⟩ := x
      simp only [ha] at h ⊢
      cases hn : s.node n with
      | none => rfl
      | some r =>
        simp only [hn] at h ⊢
        unfold State.acceptFrame
        split at h
        · split at h
          · rw [if_pos ‹_›]
          · cases h
        · cases h

/-- The command of an event in a frame has that frame's effect or none. -/
theorem inFrame_cases (s : State) (k : NodeKind) (source seq : Byte) (p : List Byte) (brings : Nat → Nat → Contents → Bool) :
    s.inFrame k source seq p brings = s.nodeFrame k source seq p ∨ s.inFrame k source seq p brings = s := by
  unfold State.inFrame
  split
  · split
    · exact .inl rfl
    · exact .inr rfl
  · exact .inr rfl

theorem inFrame_kept (s : State) (k : NodeKind) (source seq : Byte) (p : List Byte) (brings : Nat → Nat → Contents → Bool) :
    Kept s (s.inFrame k source seq p brings) := by
  rcases inFrame_cases s k source seq p brings with h | h <;> rw [h]
  · exact nodeFrame_kept s k source seq p
  · exact .refl s

theorem staleExpiry_kept (s : State) (n : Nat) : Kept s (s.staleExpiry n) := by
  unfold State.staleExpiry
  split
  · split
    · exact ((setNode_kept s n _).trans (record_kept _ _).toKept).trans (tellNeighbours_kept (tellStale_kept n) _)
    · exact .refl s
  · exact .refl s

/-! ## The queue of waiting commands -/

theorem respond_kept (s : State) (r : Response) : KeptByLoop s (s.respond r) := by
  unfold State.respond
  split
  · exact (pushRoutine_kept s r).toLoop
  · constructor <;> rfl

theorem takeRequest_pending {s : State} {serve : State → Served} (h : (serve s).1.pending = s.pending)
    (source tag code : Byte) : (s.takeRequest source tag code serve).pending = s.pending := by
  unfold State.takeRequest
  split
  · rfl
  · split <;> rename_i e
    · rw [(respond_kept _ _).pending]; rw [e] at h; exact h
    · rw [e] at h; exact h

theorem refuse_pending (s : State) (r : Result) : (s.refuse r).1.pending = s.pending := rfl

theorem serveReadStatus_pending (ps : List Byte) (s : State) : (serveReadStatus ps s).1.pending = s.pending := by
  unfold serveReadStatus; split <;> rfl

theorem serveReadEvents_pending (ps : List Byte) (s : State) : (serveReadEvents ps s).1.pending = s.pending := by
  unfold serveReadEvents; repeat' split
  all_goals rfl

theorem serveReadChannel_pending (ps : List Byte) (s : State) : (serveReadChannel ps s).1.pending = s.pending := by
  unfold serveReadChannel; repeat' split
  all_goals rfl

theorem serveReadOrders_pending (ps : List Byte) (s : State) : (serveReadOrders ps s).1.pending = s.pending := by
  unfold serveReadOrders; repeat' split
  all_goals rfl

theorem serveReadTable_pending (ps : List Byte) (s : State) : (serveReadTable ps s).1.pending = s.pending := by
  unfold serveReadTable; repeat' split
  all_goals rfl

theorem serveWriteShadow_pending (ps : List Byte) (s : State) : (serveWriteShadow ps s).1.pending = s.pending := by
  unfold serveWriteShadow; repeat' split
  all_goals rfl

theorem serveDiscardShadow_pending (ps : List Byte) (s : State) : (serveDiscardShadow ps s).1.pending = s.pending := by
  unfold serveDiscardShadow; repeat' split
  all_goals rfl

theorem serveActivate_pending (source tag : Byte) (ps : List Byte) (s : State) :
    (serveActivate source tag ps s).1.pending = s.pending := by
  unfold serveActivate; repeat' split
  all_goals rfl

theorem serveRelease_pending (ps : List Byte) (s : State) : (serveRelease ps s).1.pending = s.pending := by
  unfold serveRelease; split
  · exact (release_kept s _).pending
  · rfl

theorem serveSetMaintenance_pending (ps : List Byte) (s : State) :
    (serveSetMaintenance ps s).1.pending = s.pending := by
  unfold serveSetMaintenance; repeat' split
  · exact (setMaintenance_kept s _ _).pending
  all_goals rfl

theorem serveSetBlock_pending (ps : List Byte) (s : State) : (serveSetBlock ps s).1.pending = s.pending := by
  unfold serveSetBlock; repeat' split
  · exact (setBlockOn_kept s _).pending
  · exact (setBlockOff_kept s _).pending
  all_goals rfl

theorem serveTestLens_pending (ps : List Byte) (s : State) : (serveTestLens ps s).1.pending = s.pending := by
  unfold serveTestLens; split
  · exact (testLens_kept s _).pending
  · rfl

theorem serveReclaim_pending (ps : List Byte) (s : State) : (serveReclaim ps s).1.pending = s.pending := by
  unfold serveReclaim; split
  · exact ((enterClaiming_kept s).trans (settleRoom_kept _)).pending
  · rfl

theorem serveSoftReset_pending (ps : List Byte) (s : State) : (serveSoftReset ps s).1.pending = s.pending := by
  unfold serveSoftReset; split <;> rfl

theorem serveCode_pending (code source tag : Byte) (ps : List Byte) (s : State) :
    (serveCode code source tag ps s).1.pending = s.pending := by
  unfold serveCode
  split
  exacts [serveReadStatus_pending ps s, serveReadEvents_pending ps s, serveReadChannel_pending ps s,
    serveReadOrders_pending ps s, serveReadTable_pending ps s, serveWriteShadow_pending ps s,
    serveDiscardShadow_pending ps s, serveActivate_pending source tag ps s, serveRelease_pending ps s,
    serveSetMaintenance_pending ps s, serveSetBlock_pending ps s, serveTestLens_pending ps s, serveReclaim_pending ps s,
    serveSoftReset_pending ps s, rfl]

theorem refreshView_pending (s : State) : s.refreshView.pending = s.pending := by simp only [State.refreshView]
theorem carryNodes_pending (s : State) (old : Tables) : (s.carryNodes old).pending = s.pending := by simp only [State.carryNodes]
theorem carryChannels_pending (s : State) (old : Tables) : (s.carryChannels old).pending = s.pending := by simp only [State.carryChannels]
theorem carryPoints_pending (s : State) (old : Tables) : (s.carryPoints old).pending = s.pending := by simp only [State.carryPoints]
theorem carryBreakers_pending (s : State) (old : Tables) : (s.carryBreakers old).pending = s.pending := by simp only [State.carryBreakers]
theorem beginStoreWrite_pending (s : State) : s.beginStoreWrite.pending = s.pending := by simp only [State.beginStoreWrite]

theorem recomputeSections_pending (s : State) : s.recomputeSections.pending = s.pending := by
  have h := keeps_foldl KeptBySections.refl KeptBySections.trans recompute_kept (List.range Config.sectionCount)
    s.refreshView
  exact h.pending.trans (refreshView_pending s)

theorem swap_pending (s : State) : s.swap.pending = s.pending := by
  unfold State.swap
  rw [beginStoreWrite_pending, recomputeSections_pending, (loopActivation_kept _).pending, State.record_pending,
    carryBreakers_pending, carryPoints_pending, carryChannels_pending, carryNodes_pending]

theorem endValidation_pending (s : State) : s.endValidation.pending = s.pending := rfl

theorem validationCompletes_pending (s : State) : s.validationCompletes.pending = s.pending := by
  unfold State.validationCompletes
  split
  · split
    · rw [(respond_kept _ _).pending]; rfl
    · split
      · rw [(respond_kept _ _).pending]; rfl
      · rw [(respond_kept _ _).pending, endValidation_pending, swap_pending]
  · rfl

theorem performSoftReset_pending (s : State) : s.performSoftReset.pending = s.pending := by
  unfold State.performSoftReset
  rw [(enterClaiming_kept _).pending]; rfl

theorem finishHardReset_pending (s : State) (h : HardReset) (mv : Nat) : (s.finishHardReset h mv).pending = s.pending := by
  unfold State.finishHardReset
  dsimp only
  rw [(enterClaiming_kept _).pending]
  split <;> rfl

theorem beginHardReset_pending (s : State) (d : Bool) : (s.beginHardReset d).pending = s.pending := by
  unfold State.beginHardReset; split <;> rfl

theorem sendingCompletes_pending (s : State) : s.sendingCompletes.pending = s.pending := by
  unfold State.sendingCompletes
  split
  · rfl
  · split
    · exact performSoftReset_pending s
    · exact (((claimSent_kept s _).trans (startNext_kept _).toLoop).trans (settleRoom_kept _)).pending

theorem storeComplete_pending (s : State) (a : Bool) : (s.storeComplete a).pending = s.pending := by
  unfold State.storeComplete; split <;> rfl

theorem warningFall_pending (s : State) : s.warningFall.pending = s.pending := by
  unfold State.warningFall; split <;> rfl

theorem warningRise_pending (s : State) : s.warningRise.pending = s.pending := by
  unfold State.warningRise; split <;> rfl

theorem outsideReset_pending {f : State → State} (h : ∀ s, (f s).pending = s.pending) (s : State) :
    (s.outsideReset f).pending = s.pending := by
  unfold State.outsideReset; split
  · rfl
  · exact h s

end Sys2Proof.Machine
end

