-- ==== Sys2Proof/Laws/Delivery.lean ====
section
/-! SUPPORT. The delivery of a frame's samples (R36 to R39): a fold over the samples in ascending number, each of which changes the
record of the one channel, point or breaker that it is for. -/

namespace Sys2Proof.Machine

/-! ## A frame of a LIVE node (R31, R34, R35) -/

/-- A frame that a LIVE node sends and Node Admission accepts: the node's record, then the delivery. -/
theorem nodeFrame_live {s : State} {k : NodeKind} {source seq last : Byte} {payload : List Byte} {n : Nat} {c : Contents}
    {timer : Timer} (source_ne : source ≠ 0) (admitted : s.admission k source payload = some (n, c))
    (live : s.node n = some ⟨.live, some last, timer⟩) (seq_ne : seq ≠ last) :
    s.nodeFrame k source seq payload =
      (s.stayLive n seq (sequenceDifference seq last)).deliver n (gapOf (sequenceDifference seq last)) c := by
  have apart : sequenceDifference seq last ≠ 0 := by
    unfold sequenceDifference
    exact fun e => seq_ne (by bv_omega)
  unfold State.nodeFrame
  rw [if_neg source_ne, admitted]
  dsimp only
  rw [live]
  unfold State.acceptFrame
  dsimp only
  rw [if_neg apart]

/-! ## A frame's samples in ascending number (R39) -/

theorem deliverAll_eq_foldl {at' : State → Nat → Option Nat} {f : State → Nat → α → State} {u : State}
    (h : ∀ s, s.tables = u.tables → ∀ k, at' s k = at' u k) (hf : ∀ s i x, (f s i x).tables = s.tables) (xs : List α) :
    ∀ (k : Nat) (s : State), s.tables = u.tables → deliverAll at' f k xs s =
      (xs.zipIdx k).foldl (fun s x => match at' u x.2 with
        | some i => f s i x.1
        | none => s) s := by
  induction xs with
  | nil => exact fun _ _ _ => rfl
  | cons x xs ih =>
    intro k s hs
    rw [deliverAll, List.zipIdx_cons, List.foldl_cons, h s hs]
    refine ih (k + 1) _ ?_
    split
    · exact (hf _ _ _).trans hs
    · exact hs

theorem channelAt_congr {s t : State} (h : t.tables = s.tables) (n k : Nat) : t.channelAt n k = s.channelAt n k := by
  unfold State.channelAt State.channelsOfNode
  rw [h]

theorem pointAt_congr {s t : State} (h : t.tables = s.tables) (n k : Nat) : t.pointAt n k = s.pointAt n k := by
  unfold State.pointAt State.pointsOfNode
  rw [h]

theorem breakerAt_congr {s t : State} (h : t.tables = s.tables) (n k : Nat) : t.breakerAt n k = s.breakerAt n k := by
  unfold State.breakerAt State.breakersOfNode
  rw [h]

/-! ## Samples reach entries of their own

A fold in which each sample changes one record: the record it names is changed by its sample alone, and no other changes. -/

/-- The samples of a frame, at the entries that they are for. -/
def deliverEach (at' : Nat → Option Nat) (f : State → Nat → α → State) (xs : List α) (k : Nat) (s : State) : State :=
  (xs.zipIdx k).foldl (fun s x => match at' x.2 with
    | some i => f s i x.1
    | none => s) s

theorem deliverEach_cons (at' : Nat → Option Nat) (f : State → Nat → α → State) (x : α) (xs : List α) (k : Nat) (s : State) :
    deliverEach at' f (x :: xs) k s =
      deliverEach at' f xs (k + 1) (match at' k with
        | some i => f s i x
        | none => s) := by
  unfold deliverEach
  rw [List.zipIdx_cons, List.foldl_cons]

theorem deliverEach_other {β : Type} {at' : Nat → Option Nat} {f : State → Nat → α → State} {read : State → Nat → β}
    (hf : ∀ s i x j, j ≠ i → read (f s i x) j = read s j) (xs : List α) (j : Nat) : ∀ (k : Nat) (s : State),
    (∀ m, k ≤ m → m < k + xs.length → at' m ≠ some j) → read (deliverEach at' f xs k s) j = read s j := by
  induction xs with
  | nil => exact fun _ _ _ => rfl
  | cons x xs ih =>
    intro k s h
    rw [deliverEach_cons, ih (k + 1) _ fun m hm hl => h m (by omega) (by simp only [List.length_cons]; omega)]
    split
    · exact hf _ _ _ _ fun e => h k (le_refl k) (by simp) (e ▸ ‹_›)
    · rfl

/-- The entry of the `k`th sample is changed by that sample, in a state that reads at the entry, and in what every delivery keeps,
as the first state does. -/
theorem deliverEach_own {β : Type} {at' : Nat → Option Nat} {f : State → Nat → α → State} {read : State → Nat → β}
    (inj : ∀ k m i, at' k = some i → at' m = some i → k = m) (hf : ∀ s i x j, j ≠ i → read (f s i x) j = read s j)
    {R : State → State → Prop} (hr : ∀ s, R s s) (ht : ∀ {s t u}, R s t → R t u → R s u) (hk : ∀ s i x, R s (f s i x))
    {i : Nat} {x : α} (xs : List α) : ∀ (base k : Nat) (s : State), xs[k]? = some x → at' (base + k) = some i →
    ∃ u, R s u ∧ read u i = read s i ∧ read (deliverEach at' f xs base s) i = read (f u i x) i := by
  induction xs with
  | nil => intro base k s h; simp at h
  | cons y xs ih =>
    intro base k s h ha
    rw [deliverEach_cons]
    cases k with
    | zero =>
      simp only [List.getElem?_cons_zero, Option.some.injEq, Nat.add_zero] at h ha
      subst h
      refine ⟨s, hr s, rfl, ?_⟩
      rw [ha, deliverEach_other hf xs i (base + 1) _ fun m hm _ e => by have := inj _ _ _ e ha; omega]
    | succ k =>
      simp only [List.getElem?_cons_succ] at h
      obtain ⟨u, hu, ru, e⟩ := ih (base + 1) k (match at' base with
        | some i => f s i y
        | none => s) h (by rw [← ha]; congr 1; omega)
      refine ⟨u, ht ?_ hu, ru.trans ?_, e⟩
      · split
        · exact hk _ _ _
        · exact hr s
      · split
        · rename_i j hj
          exact hf _ _ _ _ fun e => by subst e; have := inj _ _ _ hj ha; omega
        · rfl

theorem channelAt_inj (s : State) (n k m c : Nat) (h : s.channelAt n k = some c) (h' : s.channelAt n m = some c) : k = m := by
  have e := List.find?_some h
  have e' := List.find?_some h'
  simp only [decide_eq_true_eq] at e e'
  exact e.symm.trans e'

theorem pointAt_inj (s : State) (n k m p : Nat) (h : s.pointAt n k = some p) (h' : s.pointAt n m = some p) : k = m := by
  have e := List.find?_some h
  have e' := List.find?_some h'
  simp only [decide_eq_true_eq] at e e'
  exact e.symm.trans e'

theorem breakerAt_inj (s : State) (n k m b : Nat) (h : s.breakerAt n k = some b) (h' : s.breakerAt n m = some b) : k = m := by
  have e := List.find?_some h
  have e' := List.find?_some h'
  simp only [decide_eq_true_eq] at e e'
  exact e.symm.trans e'

theorem deliver_light (s : State) (n gap : Nat) (xs : List (Nat × Bool)) : s.deliver n gap (.light xs) =
    deliverEach (s.channelAt n) (fun s c x => s.deliverLight c x.1 x.2 gap) xs 0 s :=
  deliverAll_eq_foldl (fun _ h k => channelAt_congr h n k) (fun s c _ => (deliverLight_kept s c _ _ _).active) xs 0 s rfl

theorem deliver_current (s : State) (n gap : Nat) (xs : List Phases) : s.deliver n gap (.current xs) =
    deliverEach (s.pointAt n) (fun s p x => s.deliverPoint p gap x) xs 0 s :=
  deliverAll_eq_foldl (fun _ h k => pointAt_congr h n k) (fun s p x => (deliverPoint_kept s p _ x).active) xs 0 s rfl

theorem deliver_positions (s : State) (n gap : Nat) (xs : List Position) : s.deliver n gap (.positions xs) =
    deliverEach (s.breakerAt n) (fun s b x => s.deliverPosition b x) xs 0 s :=
  deliverAll_eq_foldl (fun _ h k => breakerAt_congr h n k) (fun s b x => (deliverPosition_kept s b x).active) xs 0 s rfl

/-! ## One delivery -/

/-- Samples processed one after another, read back. -/
theorem channel_processAll (xs : List Sample) (c : Nat) : ∀ {s : State} {r : ChannelRec}, s.channel c = some r →
    ∀ j, (xs.foldl (fun s x => s.processSample c x) s).channel j =
      if j = c then some (xs.foldl (fun r x => (ChannelRec.process (s.tables.channel c) r x).1) r) else s.channel j := by
  induction xs with
  | nil => intro s r h j; by_cases e : j = c <;> simp [e, h]
  | cons x xs ih =>
    intro s r h j
    have own : (s.processSample c x).channel c = some (ChannelRec.process (s.tables.channel c) r x).1 := by
      rw [channel_processSample h, if_pos rfl]
    have tables : (s.processSample c x).tables = s.tables := (processSample_kept s c x).active
    rw [List.foldl_cons, ih own, tables]
    by_cases e : j = c
    · simp [e]
    · rw [if_neg e, if_neg e, channel_processSample h, if_neg e]

theorem processMany_eq_foldl (c : Nat) (x : Sample) (n : Nat) : ∀ s : State,
    s.processMany c x n = (List.replicate n x).foldl (fun s x => s.processSample c x) s := by
  induction n with
  | zero => exact fun _ => rfl
  | succ n ih => intro s; exact ih _

/-- The processed samples of a delivered sample with its gap, in their order (R52, R53). -/
theorem processDelivered_eq_foldl {s : State} {c : Nat} {r : ChannelRec} (h : s.channel c = some r) (level gap : Nat) :
    s.processDelivered c level gap =
      (List.replicate (heldCount r gap) Sample.held ++ List.replicate (gap - heldCount r gap) Sample.missing ++
        [Sample.received level]).foldl (fun s x => s.processSample c x) s := by
  unfold State.processDelivered
  rw [h]
  simp only [List.foldl_append, ← processMany_eq_foldl, List.foldl_cons, List.foldl_nil]

/-- The ending of a test touches the record of its channel alone. -/
theorem channel_endTest_other (s : State) (c j : Nat) (result : LensResult) (a : Option Nat) (hj : j ≠ c) :
    (s.endTest c result a).channel j = s.channel j := by
  have set : ∀ (u : State) old new, (u.changeChannel c old new).channel j = u.channel j := fun u old new => by
    rw [channel_changeChannel, State.channel_setChannel, if_neg fun h => hj h.1.symm]
  have sample : ∀ (u : State) x, (u.processSample c x).channel j = u.channel j := fun u x => by
    cases h : u.channel c with
    | none => unfold State.processSample; rw [h]
    | some r => rw [channel_processSample h, if_neg hj]
  have leave : ∀ u : State, (u.leaveTesting c a).channel j = u.channel j := fun u => by
    unfold State.leaveTesting
    split
    · split
      · rfl
      · split
        · dsimp only
          split
          · rw [sample, set]
          · exact set _ _ _
        · exact set _ _ _
    · rfl
  exact (State.channel_congr (putOutLamp_same _ c).1 j).trans (leave _)

theorem channel_lensSample_other (s : State) (c level j : Nat) (flag : Bool) (hj : j ≠ c) :
    (s.lensSample c level flag).channel j = s.channel j := by
  have hand : ∀ (u : State) g st, (u.handOver c g st).channel j = u.channel j := fun u g st => by
    unfold State.handOver
    split
    · rw [State.channel_setChannel, if_neg fun h => hj h.1.symm]
    · rfl
  have count : ∀ (u : State) n p, (u.countFlagged c n p).channel j = u.channel j := fun u n p => by
    unfold State.countFlagged
    dsimp only
    split
    · unfold State.completeWindow
      split
      · rfl
      · exact (channel_endTest_other _ c j _ _ hj).trans (hand _ _ _)
    · rfl
  unfold State.lensSample
  split
  · rfl
  · split
    · exact channel_endTest_other s c j _ _ hj
    · split
      · exact count s _ _
      · exact channel_endTest_other s c j _ _ hj
      · exact count s _ _
      · rfl

/-- A light sample touches the record of its channel alone. -/
theorem channel_deliverLight_other (s : State) (c level gap j : Nat) (flag : Bool) (hj : j ≠ c) :
    (s.deliverLight c level flag gap).channel j = s.channel j := by
  unfold State.deliverLight
  cases h : s.channel c with
  | none => rfl
  | some r =>
    have set : (s.setChannel c { r with raw := some level }).channel j = s.channel j := by
      rw [channel_setChannel_of_some h, if_neg hj]
    have own : (s.setChannel c { r with raw := some level }).channel c = some { r with raw := some level } := by
      rw [channel_setChannel_of_some h, if_pos rfl]
    dsimp only
    split
    · rw [processDelivered_eq_foldl own, channel_processAll _ c own, if_neg hj, set]
    · rw [processDelivered_eq_foldl own, channel_processAll _ c own, if_neg hj, set]
    · rw [channel_lensSample_other _ c level j flag hj, set]
    · exact set

/-- A NORMAL or DIRTY channel processes its gap and its sample (R52). -/
theorem deliverLight_eq {s : State} {c : Nat} {r : ChannelRec} (h : s.channel c = some r) (hc : r.cond = .normal ∨ r.cond = .dirty)
    (level gap : Nat) (flag : Bool) : s.deliverLight c level flag gap =
      (List.replicate (heldCount r gap) Sample.held ++ List.replicate (gap - heldCount r gap) Sample.missing ++
        [Sample.received level]).foldl (fun s x => s.processSample c x) (s.setChannel c { r with raw := some level }) := by
  have own : (s.setChannel c { r with raw := some level }).channel c = some { r with raw := some level } := by
    rw [channel_setChannel_of_some h, if_pos rfl]
  have all := processDelivered_eq_foldl own level gap
  unfold State.deliverLight
  rw [h]
  dsimp only
  rcases hc with e | e <;> simp only [e] at all ⊢ <;> exact all

/-- A current sample touches the record of its point alone: the gap is taken from the counter, then the sample counts (R70). -/
theorem point_deliverPoint (s : State) (p gap j : Nat) (x : Phases) : (s.deliverPoint p gap x).point j =
    if j = p then (s.point p).map fun r => { r with stretch := stretchAfter (s.tables.point p) (r.stretch - gap) x } else s.point j := by
  have read : ∀ (u : State) old new j, (u.point p).isSome = true →
      (u.changePoint p old new).point j = if j = p then some new else u.point j := fun u old new j hs => by
    have lt : p < Config.pointCount := by
      by_contra hh
      simp [State.point, Vector.getElem?_eq_none (Nat.not_lt.mp hh)] at hs
    rw [point_changePoint, State.point_setPoint]
    by_cases e : p = j
    · subst e; simp [lt]
    · simp [e, Ne.symm e]
  unfold State.deliverPoint State.pointGap
  cases h : s.point p with
  | none =>
    simp only [State.pointSample, h, Option.map_none]
    split <;> simp_all
  | some r =>
    dsimp only
    have own := read s r { r with stretch := r.stretch - gap } p (by simp [h])
    rw [if_pos rfl] at own
    have tables : (s.changePoint p r { r with stretch := r.stretch - gap }).tables = s.tables := (changePoint_kept s p _ _).active
    unfold State.pointSample
    rw [own]
    dsimp only
    rw [read _ _ _ _ (by simp [own]), State.pointEntry, tables]
    by_cases e : j = p
    · simp [e]
    · rw [if_neg e, if_neg e, read _ _ _ _ (by simp [h]), if_neg e]

/-- A position code touches the position of its breaker alone (R106). -/
theorem position_deliverPosition (s : State) (b j : Nat) (p : Position) : (s.deliverPosition b p).position j =
    if j = b then (s.position b).map fun _ => p else s.position j := by
  unfold State.deliverPosition
  cases h : s.position b with
  | none => by_cases e : j = b <;> simp [e, h]
  | some old =>
    have lt : b < Config.breakerCount := by
      by_contra hh
      simp [State.position, Vector.getElem?_eq_none (Nat.not_lt.mp hh)] at h
    dsimp only
    split
    · rename_i same
      by_cases e : j = b
      · simp [e, h, same]
      · simp [e]
    · rw [State.position_congr (orderSeesPosition_kept _ b p).positions, State.position_congr (record_kept _ _).positions,
        State.position_setPosition]
      by_cases e : b = j
      · subst e; simp [lt]
      · simp [e, Ne.symm e]

end Sys2Proof.Machine
end

