-- ==== Sys2Proof/Laws/Lasting.lean ====
section
/-! SUPPORT. What becomes of the order on a breaker while orders are asked for, fail and escalate, and while the cut set is
recomputed: it stays on its breaker, FAILED stays FAILED, and ISSUED becomes FAILED or stays. -/

namespace Sys2Proof.Machine

/-- The order has failed and its failure timer is stopped (R119, R122). -/
def Order.hasFailed (o : Order) : Prop := o.state = .failed ∧ o.failure = .stopped

/-- What an order may become: the same with more causes or less depth, FAILED when it was ISSUED, never unfailed. -/
def Order.Lasts (o o' : Order) : Prop :=
  o'.causes &&& o.causes = o.causes ∧ o'.depth ≤ o.depth ∧ (o.hasFailed → o'.hasFailed) ∧
    (o.state = .issued → o'.state = .issued ∨ o'.hasFailed)

/-- The order on each breaker lasts. -/
def OrdersLast (s t : State) : Prop := ∀ b o, s.order b = some o → ∃ o', t.order b = some o' ∧ o.Lasts o'

theorem Order.Lasts.refl (o : Order) : o.Lasts o := ⟨BitVec.and_self, le_refl _, id, .inl⟩

theorem Order.Lasts.trans {o p q : Order} (h : o.Lasts p) (k : p.Lasts q) : o.Lasts q := by
  obtain ⟨h1, h2, h3, h4⟩ := h
  obtain ⟨k1, k2, k3, k4⟩ := k
  refine ⟨?_, k2.trans h2, k3 ∘ h3, fun i => (h4 i).elim k4 fun f => .inr (k3 f)⟩
  rw [← h1, ← BitVec.and_assoc, k1]

theorem OrdersLast.of_eq {s t : State} (h : t.trip.orders = s.trip.orders) : OrdersLast s t := by
  intro b o ho
  refine ⟨o, ?_, .refl o⟩
  unfold State.order at ho ⊢
  rw [h, ho]

theorem OrdersLast.refl (s : State) : OrdersLast s s := .of_eq rfl

theorem OrdersLast.trans {s t u : State} (h : OrdersLast s t) (k : OrdersLast t u) : OrdersLast s u := by
  intro b o ho
  obtain ⟨p, hp, lp⟩ := h b o ho
  obtain ⟨q, hq, lq⟩ := k b p hp
  exact ⟨q, hq, lp.trans lq⟩

/-- A change of the order on a breaker that keeps its breaker and that it outlasts. -/
theorem updateOrder_last (s : State) (b : Nat) (f : Order → Order) (hf : ∀ o, (f o).breaker = o.breaker)
    (hl : ∀ o : Order, o.Lasts (f o)) : OrdersLast s (s.updateOrder b f) := by
  intro j o ho
  rw [order_updateOrder s b j f hf]
  split
  · rename_i e
    rw [← e, ho]
    exact ⟨f o, rfl, hl o⟩
  · exact ⟨o, ho, .refl o⟩

theorem clearWaiting_last (s : State) (b : Nat) : OrdersLast s (s.clearWaiting b) :=
  updateOrder_last s b _ (fun _ => rfl) fun o => .refl { o with waiting := _ }

theorem startNext_last (s : State) : OrdersLast s s.startNext := by
  rcases startNext_orders s with h | ⟨f, _, _, h⟩
  · exact .of_eq h
  · exact (clearWaiting_last s f.breaker).trans (.of_eq h)

theorem startIfIdle_last (s : State) : OrdersLast s s.startIfIdle := by
  unfold State.startIfIdle
  split
  · exact startNext_last s
  · exact .refl s

theorem pushTrip_last (s : State) (f : TripFrame) : OrdersLast s (s.pushTrip f) :=
  OrdersLast.trans (.of_eq rfl) (startIfIdle_last (s.setLoop { s.loop with tripQ := s.loop.tripQ ++ [f] }))

theorem pushControl_last (s : State) (f : ControlFrame) : OrdersLast s (s.pushControl f) :=
  OrdersLast.trans (.of_eq rfl) (startIfIdle_last (s.setLoop { s.loop with controlQ := s.loop.controlQ ++ [f] }))

theorem pushRoutine_last (s : State) (r : Response) : OrdersLast s (s.pushRoutine r) :=
  OrdersLast.trans (.of_eq rfl) (startIfIdle_last (s.setLoop { s.loop with routineQ := s.loop.routineQ ++ [r] }))

theorem attemptSend_last (s : State) (b : Nat) : OrdersLast s (s.attemptSend b) := by
  unfold State.attemptSend
  split
  · split
    · exact (updateOrder_last s b (fun o => { o with waiting := true }) (fun _ => rfl)
        fun o => .refl { o with waiting := _ }).trans (pushTrip_last _ _)
    · exact .refl s
  · exact .refl s

theorem driveLine_last (s : State) (b : Nat) : OrdersLast s (s.driveLine b) := by
  unfold State.driveLine
  split
  · split <;> exact .of_eq rfl
  · exact .refl s

theorem disturb_last (s : State) : OrdersLast s s.disturb := by
  unfold State.disturb
  split <;> exact .of_eq rfl

/-- What is asked for nests in what an operation is given. -/
abbrev AskLasts (ask : Nat → SectionSet → Nat → State → State) : Prop := ∀ b c d s, OrdersLast s (ask b c d s)

theorem askBackups_last {ask} (h : AskLasts ask) (b : Nat) (c : SectionSet) (d : Nat) (s : State) :
    OrdersLast s (s.askBackups ask b c d) :=
  keeps_foldl OrdersLast.refl OrdersLast.trans (fun s b' => h b' c (d + 1) s) _ s

/-- An order that is marked FAILED fails; any other lasts (R119, R122). -/
theorem markFailed_last (s : State) (o : Order) (r : FailReason) : OrdersLast s (s.markFailed o r) :=
  (updateOrder_last s o.breaker (fun o => { o with state := .failed, failure := .stopped }) (fun _ => rfl)
    fun _ => ⟨BitVec.and_self, le_refl _, fun _ => ⟨rfl, rfl⟩, fun _ => .inr ⟨rfl, rfl⟩⟩).trans (.of_eq rfl)

theorem escalate_last {ask} (h : AskLasts ask) (o : Order) (s : State) : OrdersLast s (s.escalate ask o) := by
  unfold State.escalate
  split
  · exact .of_eq rfl
  · split
    · exact .of_eq rfl
    · exact askBackups_last h _ _ _ s

theorem failWith_last {ask} (h : AskLasts ask) (b : Nat) (r : FailReason) (s : State) : OrdersLast s (s.failWith ask b r) := by
  unfold State.failWith
  split
  · exact (markFailed_last s _ r).trans (escalate_last h _ _)
  · exact .refl s

theorem failIfCut_last {ask} (h : AskLasts ask) (b : Nat) (s : State) : OrdersLast s (s.failIfCut ask b) := by
  unfold State.failIfCut
  split
  · exact failWith_last h b .cut s
  · exact .refl s

/-- An order at the tail of the list leaves the order on every breaker that has one. -/
theorem append_last (s : State) (o : Order) : OrdersLast s (s.setOrders (s.trip.orders ++ [o])) := by
  intro b p hp
  refine ⟨p, ?_, .refl p⟩
  unfold State.order State.setOrders at *
  rw [List.find?_append, hp]
  rfl

theorem createOrder_last {ask} (h : AskLasts ask) (b : Nat) (p : Position) (c : SectionSet) (d : Nat) (s : State) :
    OrdersLast s (s.createOrder ask b p c d) := by
  have k := ((append_last s (s.newOrder b p c d)).trans (disturb_last _)).trans
    (OrdersLast.of_eq (t := (s.setOrders (s.trip.orders ++ [s.newOrder b p c d])).disturb.record
      (orderRecord .orderIssued (s.newOrder b p c d) (value2 d (s.newOrder b p c d).state.code))) rfl)
  unfold State.createOrder
  split
  · exact k
  · exact ((k.trans (attemptSend_last _ b)).trans (driveLine_last _ b)).trans (failIfCut_last h b _)

theorem mergeOrder_last {ask} (h : AskLasts ask) (o : Order) (c : SectionSet) (d : Nat) (s : State) :
    OrdersLast s (s.mergeOrder ask o c d) := by
  have k := updateOrder_last s o.breaker (fun o => o.mergeWith c d) (fun _ => rfl) fun o =>
    ⟨by simp only [Order.mergeWith]; ext i; simp; tauto, min_le_left _ _, id, .inl⟩
  unfold State.mergeOrder
  dsimp only
  split
  · exact k.trans (askBackups_last h _ _ _ _)
  · exact k

theorem askOrder_last (fuel : Nat) : AskLasts (askOrder fuel) := by
  induction fuel with
  | zero => exact fun _ _ _ s => .refl s
  | succ n ih =>
    intro b c d s
    unfold askOrder
    split
    · exact mergeOrder_last ih _ c d s
    · exact createOrder_last ih b _ c d s
    · exact .refl s

/-- Whatever an asking escalates to, the order on each breaker lasts (R112, R120). -/
theorem ask_last : AskLasts State.ask := askOrder_last _

theorem enterCut_last (s : State) (b : Nat) : OrdersLast s (s.enterCut b) := by
  unfold State.enterCut
  split
  · split
    · exact failIfCut_last ask_last b s
    · exact .refl s
  · exact .refl s

theorem withdrawTrip_last (s : State) (b : Nat) : OrdersLast s (s.withdrawTrip b) := by
  exact OrdersLast.trans (.of_eq rfl) (clearWaiting_last (s.setLoop _) b)

/-- The order on a breaker that is marked FAILED. -/
theorem order_markFailed {s : State} {b : Nat} {o : Order} (h : s.order b = some o) (r : FailReason) :
    (s.markFailed o r).order b = some { o with state := .failed, failure := .stopped } := by
  have k := order_updateOrder s o.breaker b (fun o => { o with state := .failed, failure := .stopped }) fun _ => rfl
  rw [if_pos (order_breaker h).symm, order_breaker h, h] at k
  unfold State.markFailed
  rw [show o.breaker = b from order_breaker h]
  exact k.trans (by simp [order_breaker h])

/-- An ISSUED order on a breaker that is cut and has no line has failed once the breaker is handed over (R122). -/
theorem enterCut_fails {s : State} {b : Nat} {o : Order} (h : s.order b = some o) (hi : o.state = .issued)
    (hc : s.cutWithoutLine b = true) : ∃ o', (s.enterCut b).order b = some o' ∧ o'.hasFailed := by
  unfold State.enterCut State.failIfCut State.failWith
  simp only [h, hi, hc, if_true]
  obtain ⟨o', ho', -, -, f, -⟩ := escalate_last ask_last o (s.markFailed o .cut) b _ (order_markFailed h .cut)
  exact ⟨o', ho', f ⟨rfl, rfl⟩⟩

end Sys2Proof.Machine
end

