-- ==== Sys2Proof/Laws/Orders.lean ====
section
/-! SUPPORT. What asking for orders does to the active trip list, whatever escalation follows it (R110 to R112, R120): no order
leaves the list, no cause set shrinks and no depth rises, and the breaker asked for carries the causes asked for. -/

namespace Sys2Proof.Machine

/-- Every order of one state stands in the other on the same breaker, with at least its causes and at most its depth. -/
def OrdersGrow (s t : State) : Prop :=
  ∀ o ∈ s.trip.orders, ∃ o' ∈ t.trip.orders,
    o'.breaker = o.breaker ∧ o'.causes &&& o.causes = o.causes ∧ o'.depth ≤ o.depth

/-- A change of one order that keeps its breaker and its causes and does not raise its depth. -/
def Grows (f : Order → Order) : Prop :=
  ∀ o, (f o).breaker = o.breaker ∧ (f o).causes &&& o.causes = o.causes ∧ (f o).depth ≤ o.depth

theorem OrdersGrow.of_eq {s t : State} (h : t.trip.orders = s.trip.orders) : OrdersGrow s t :=
  fun o ho => ⟨o, h ▸ ho, rfl, BitVec.and_self, le_refl _⟩

theorem OrdersGrow.refl (s : State) : OrdersGrow s s := .of_eq rfl

theorem OrdersGrow.trans {s t u : State} (h : OrdersGrow s t) (k : OrdersGrow t u) : OrdersGrow s u := by
  intro o ho
  obtain ⟨o1, h1, hb1, hc1, hd1⟩ := h o ho
  obtain ⟨o2, h2, hb2, hc2, hd2⟩ := k o1 h1
  refine ⟨o2, h2, hb2.trans hb1, ?_, hd2.trans hd1⟩
  rw [← hc1, ← BitVec.and_assoc, hc2]

theorem updateOrder_grows (s : State) (b : Nat) (f : Order → Order) (hf : Grows f) : OrdersGrow s (s.updateOrder b f) := by
  intro o ho
  refine ⟨if o.breaker = b then f o else o, List.mem_map.2 ⟨o, ho, rfl⟩, ?_⟩
  split
  · exact hf o
  · exact ⟨rfl, BitVec.and_self, le_refl _⟩

/-- A change that leaves breaker, causes and depth alone. -/
theorem grows_of_same {f : Order → Order} (h : ∀ o, (f o).breaker = o.breaker ∧ (f o).causes = o.causes ∧ (f o).depth = o.depth) :
    Grows f := fun o => ⟨(h o).1, by rw [(h o).2.1, BitVec.and_self], (h o).2.2.le⟩

theorem clearWaiting_grows (s : State) (b : Nat) : OrdersGrow s (s.clearWaiting b) :=
  updateOrder_grows s b _ (grows_of_same fun _ => ⟨rfl, rfl, rfl⟩)

theorem startNext_grows (s : State) : OrdersGrow s s.startNext := by
  rcases startNext_orders s with h | ⟨f, _, _, h⟩
  · exact .of_eq h
  · exact (clearWaiting_grows s f.breaker).trans (.of_eq h)

theorem startIfIdle_grows (s : State) : OrdersGrow s s.startIfIdle := by
  unfold State.startIfIdle
  split
  · exact startNext_grows s
  · exact .refl s

theorem pushTrip_grows (s : State) (f : TripFrame) : OrdersGrow s (s.pushTrip f) :=
  OrdersGrow.trans (.of_eq rfl) (startIfIdle_grows (s.setLoop { s.loop with tripQ := s.loop.tripQ ++ [f] }))

theorem disturb_orders (s : State) : s.disturb.trip.orders = s.trip.orders := by
  unfold State.disturb
  split <;> rfl

theorem driveLine_orders (s : State) (b : Nat) : (s.driveLine b).trip.orders = s.trip.orders := by
  unfold State.driveLine
  split
  · split <;> rfl
  · rfl

theorem attemptSend_grows (s : State) (b : Nat) : OrdersGrow s (s.attemptSend b) := by
  unfold State.attemptSend
  split
  · split
    · exact (updateOrder_grows s b (fun o => { o with waiting := true }) (grows_of_same fun _ => ⟨rfl, rfl, rfl⟩)).trans
        (pushTrip_grows _ _)
    · exact .refl s
  · exact .refl s

/-- What is asked for nests in what an operation is given: `ask` lets the orders grow. -/
abbrev AskGrows (ask : Nat → SectionSet → Nat → State → State) : Prop := ∀ b c d s, OrdersGrow s (ask b c d s)

theorem askBackups_grows {ask} (h : AskGrows ask) (b : Nat) (c : SectionSet) (d : Nat) (s : State) :
    OrdersGrow s (s.askBackups ask b c d) :=
  keeps_foldl OrdersGrow.refl OrdersGrow.trans (fun s b' => h b' c (d + 1) s) _ s

theorem escalate_grows {ask} (h : AskGrows ask) (o : Order) (s : State) : OrdersGrow s (s.escalate ask o) := by
  unfold State.escalate
  split
  · exact .of_eq rfl
  · split
    · exact .of_eq rfl
    · exact askBackups_grows h _ _ _ s

theorem markFailed_grows (s : State) (o : Order) (r : FailReason) : OrdersGrow s (s.markFailed o r) :=
  (updateOrder_grows s o.breaker (fun o => { o with state := .failed, failure := .stopped })
    (grows_of_same fun _ => ⟨rfl, rfl, rfl⟩)).trans (.of_eq rfl)

theorem failWith_grows {ask} (h : AskGrows ask) (b : Nat) (r : FailReason) (s : State) :
    OrdersGrow s (s.failWith ask b r) := by
  unfold State.failWith
  split
  · exact (markFailed_grows s _ r).trans (escalate_grows h _ _)
  · exact .refl s

theorem failIfCut_grows {ask} (h : AskGrows ask) (b : Nat) (s : State) : OrdersGrow s (s.failIfCut ask b) := by
  unfold State.failIfCut
  split
  · exact failWith_grows h b .cut s
  · exact .refl s

theorem newOrder_fields (s : State) (b : Nat) (p : Position) (c : SectionSet) (d : Nat) :
    (s.newOrder b p c d).breaker = b ∧ (s.newOrder b p c d).causes = c ∧ (s.newOrder b p c d).depth = d := by
  unfold State.newOrder
  split <;> exact ⟨rfl, rfl, rfl⟩

/-- The state with the new order at its tail and its record made grows into the state that creating it leaves. -/
theorem createOrder_tail {ask} (h : AskGrows ask) (b : Nat) (p : Position) (c : SectionSet) (d : Nat) (s : State) :
    OrdersGrow (s.setOrders (s.trip.orders ++ [s.newOrder b p c d])) (s.createOrder ask b p c d) := by
  have k : OrdersGrow (s.setOrders (s.trip.orders ++ [s.newOrder b p c d]))
      ((s.setOrders (s.trip.orders ++ [s.newOrder b p c d])).disturb.record
        (orderRecord .orderIssued (s.newOrder b p c d) (value2 d (s.newOrder b p c d).state.code))) :=
    .of_eq (disturb_orders _)
  unfold State.createOrder
  split
  · exact k
  · exact ((k.trans (attemptSend_grows _ b)).trans (.of_eq (driveLine_orders _ b))).trans (failIfCut_grows h b _)

theorem createOrder_grows {ask} (h : AskGrows ask) (b : Nat) (p : Position) (c : SectionSet) (d : Nat) (s : State) :
    OrdersGrow s (s.createOrder ask b p c d) := by
  refine OrdersGrow.trans (fun o ho => ?_) (createOrder_tail h b p c d s)
  exact ⟨o, List.mem_append_left _ ho, rfl, BitVec.and_self, le_refl _⟩

theorem mergeWith_grows (c : SectionSet) (d : Nat) : Grows fun o => o.mergeWith c d := by
  intro o
  refine ⟨rfl, ?_, min_le_left _ _⟩
  simp only [Order.mergeWith]
  ext i
  simp
  tauto

theorem mergeOrder_grows {ask} (h : AskGrows ask) (o : Order) (c : SectionSet) (d : Nat) (s : State) :
    OrdersGrow s (s.mergeOrder ask o c d) := by
  have k := updateOrder_grows s o.breaker _ (mergeWith_grows c d)
  unfold State.mergeOrder
  dsimp only
  split
  · exact k.trans (askBackups_grows h _ _ _ _)
  · exact k

theorem askOrder_grows (fuel : Nat) : AskGrows (askOrder fuel) := by
  induction fuel with
  | zero => exact fun _ _ _ s => .refl s
  | succ n ih =>
    intro b c d s
    unfold askOrder
    split
    · exact mergeOrder_grows ih _ c d s
    · exact createOrder_grows ih b _ c d s
    · exact .refl s

/-- Asking for an order takes no order from the list, no section from a cause set, and raises no depth (R112, R120). -/
theorem ask_grows : AskGrows State.ask := askOrder_grows _

/-- After an asking, however deep it may nest, the breaker has an order with the causes asked for (R110). -/
theorem askOrder_demands (fuel : Nat) (s : State) (b d : Nat) (c : SectionSet) (h : (s.position b).isSome = true) :
    ∃ o ∈ (askOrder (fuel + 1) b c d s).trip.orders, o.breaker = b ∧ o.causes &&& c = c := by
  unfold askOrder
  split
  · rename_i o ho
    have hb := order_breaker ho
    have hm : o.mergeWith c d ∈ (s.updateOrder o.breaker fun o => o.mergeWith c d).trip.orders :=
      List.mem_map.2 ⟨o, order_mem ho, by simp⟩
    have k : ∃ o' ∈ (s.mergeOrder (askOrder fuel) o c d).trip.orders,
        o'.breaker = o.breaker ∧ o'.causes &&& (o.causes ||| c) = o.causes ||| c := by
      unfold State.mergeOrder
      dsimp only
      split
      · obtain ⟨o', h1, h2, h3, -⟩ := askBackups_grows (askOrder_grows fuel) o.breaker (o.mergeWith c d).causes
          (o.mergeWith c d).depth (s.updateOrder o.breaker fun o => o.mergeWith c d) _ hm
        exact ⟨o', h1, h2, h3⟩
      · exact ⟨_, hm, rfl, BitVec.and_self⟩
    obtain ⟨o', h1, h2, h3⟩ := k
    refine ⟨o', h1, h2.trans hb, ?_⟩
    ext i hi
    have := congrArg (fun x : SectionSet => x.getLsbD i) h3
    simp at this ⊢
    tauto
  · rename_i p _ hp
    obtain ⟨o', h1, h2, h3, -⟩ := createOrder_tail (askOrder_grows fuel) b p c d s (s.newOrder b p c d)
      (List.mem_append_right _ (List.mem_singleton.2 rfl))
    obtain ⟨n1, n2, -⟩ := newOrder_fields s b p c d
    exact ⟨o', h1, h2.trans n1, by rw [n2] at h3; exact h3⟩
  · rename_i hp
    rw [hp] at h
    cases h

/-- After the asking the breaker has an order with the causes asked for (R110). -/
theorem ask_demands (s : State) (b d : Nat) (c : SectionSet) (h : (s.position b).isSome = true) :
    ∃ o ∈ (s.ask b c d).trip.orders, o.breaker = b ∧ o.causes &&& c = c := askOrder_demands 511 s b d c h

/-- After a section's boundary breakers have been asked for, each of them that has a record carries the section (R89, R110). -/
theorem askBoundary_demands (i : Nat) (bs : List Nat) (s : State) (b : Nat) (hb : b ∈ bs)
    (h : (s.position b).isSome = true) :
    ∃ o ∈ (State.askBoundary i bs s).trip.orders, o.breaker = b ∧ o.causes &&& sectionSet i = sectionSet i := by
  induction bs generalizing s with
  | nil => cases hb
  | cons x xs ih =>
    have hstep : State.askBoundary i (x :: xs) s = State.askBoundary i xs (s.ask x (sectionSet i) 0) := rfl
    rw [hstep]
    rcases List.mem_cons.1 hb with rfl | hb
    · obtain ⟨o, ho, hob, hoc⟩ := ask_demands s b 0 (sectionSet i) h
      obtain ⟨o', h1, h2, h3, -⟩ :=
        keeps_foldl OrdersGrow.refl OrdersGrow.trans (fun s b => ask_grows b (sectionSet i) 0 s) xs _ o ho
      refine ⟨o', h1, h2.trans hob, ?_⟩
      rw [← hoc, ← BitVec.and_assoc, h3]
    · refine ih _ hb ?_
      rw [State.position_congr (ask_kept x (sectionSet i) 0 s).positions]
      exact h

end Sys2Proof.Machine
end

