-- ==== Sys2Proof/Laws/Escalation.lean ====
section
/-! SUPPORT. Escalation ends (R120): every nested asking has created an order, added a section to a cause set or lowered a depth, so
askings never nest as deep as the bound that `askOrder` recurses on, and an asking is what its rule says with no bound in sight. -/

namespace Sys2Proof.Machine

/-- What asking can still change of the order on a breaker: its creation, a section added to its causes, and its depth lowered below
2 (R111, R112). -/
def orderRoom : Option Order → Nat
  | none => 19
  | some o => (∑ i ∈ Finset.range 16, if o.causes.getLsbD i then 0 else 1) + min o.depth 2

/-- What asking can still change of the orders on the 24 breakers. -/
def State.askingRoom (s : State) : Nat := ∑ b ∈ Finset.range Config.breakerCount, orderRoom (s.order b)

theorem orderRoom_some (o : Order) : orderRoom (some o) ≤ 18 := by
  have h : (∑ i ∈ Finset.range 16, if o.causes.getLsbD i then 0 else 1) ≤ ∑ i ∈ Finset.range 16, 1 :=
    Finset.sum_le_sum fun i _ => by split <;> omega
  simp only [orderRoom]
  simp at h
  have : min o.depth 2 ≤ 2 := min_le_right _ _
  omega

theorem bit_of_and {x y : SectionSet} (h : y &&& x = x) {i : Nat} (hi : x.getLsbD i = true) : y.getLsbD i = true := by
  have := congrArg (fun z : SectionSet => z.getLsbD i) h
  simp only [BitVec.getLsbD_and, hi] at this
  simpa using this

theorem missing_le {x y : SectionSet} (h : y &&& x = x) (i : Nat) :
    (if y.getLsbD i then 0 else 1) ≤ if x.getLsbD i then 0 else 1 := by
  by_cases hi : x.getLsbD i = true
  · simp [hi, bit_of_and h hi]
  · split <;> simp

theorem orderRoom_lasts {o p : Order} (h : o.Lasts p) : orderRoom (some p) ≤ orderRoom (some o) := by
  obtain ⟨hc, hd, -⟩ := h
  have := Finset.sum_le_sum (s := Finset.range 16) fun i _ => missing_le hc i
  simp only [orderRoom]
  omega

/-- A merge that adds a section or lowers the depth below 2 leaves less to change (R112). -/
theorem orderRoom_merge {o : Order} {c : SectionSet} {d : Nat}
    (h : (o.mergeWith c d).causes ≠ o.causes ∨ (o.mergeWith c d).depth < o.depth) (h2 : (o.mergeWith c d).depth < 2) :
    orderRoom (some (o.mergeWith c d)) < orderRoom (some o) := by
  have sub : (o.mergeWith c d).causes &&& o.causes = o.causes := by
    simp only [Order.mergeWith]; ext i; simp; tauto
  have le := fun i => missing_le sub i
  have sum := Finset.sum_le_sum (s := Finset.range 16) fun i _ => le i
  have hd : (o.mergeWith c d).depth ≤ o.depth := min_le_left _ _
  by_cases e : (o.mergeWith c d).causes = o.causes
  · simp only [orderRoom]
    have := h.resolve_left fun k => k e
    omega
  · have lt : (∑ i ∈ Finset.range 16, if (o.mergeWith c d).causes.getLsbD i then 0 else 1) <
        ∑ i ∈ Finset.range 16, if o.causes.getLsbD i then 0 else 1 := by
      by_contra hh
      refine e (BitVec.eq_of_getLsbD_eq fun i hi => ?_)
      have eq : ∀ i ∈ Finset.range 16, (if (o.mergeWith c d).causes.getLsbD i then 0 else 1) = if o.causes.getLsbD i then 0 else 1 :=
        (Finset.sum_eq_sum_iff_of_le fun i _ => le i).1 (by omega)
      have at' := eq i (Finset.mem_range.2 hi)
      generalize (o.mergeWith c d).causes.getLsbD i = x at at' ⊢
      generalize o.causes.getLsbD i = y at at' ⊢
      revert at'; revert x y; decide
    simp only [orderRoom]
    omega

theorem orderRoom_le {s t : State} (h : OrdersLast s t) (b : Nat) : orderRoom (t.order b) ≤ orderRoom (s.order b) := by
  cases hs : s.order b with
  | none =>
    cases ht : t.order b with
    | none => exact le_refl _
    | some o => exact (orderRoom_some o).trans (by simp [orderRoom])
  | some o =>
    obtain ⟨p, hp, l⟩ := h b o hs
    rw [hp]
    exact orderRoom_lasts l

theorem askingRoom_le {s t : State} (h : OrdersLast s t) : t.askingRoom ≤ s.askingRoom :=
  Finset.sum_le_sum fun b _ => orderRoom_le h b

theorem askingRoom_lt {s t : State} (h : OrdersLast s t) {b : Nat} (hb : b < 24)
    (hl : orderRoom (t.order b) < orderRoom (s.order b)) : t.askingRoom < s.askingRoom :=
  Finset.sum_lt_sum (fun b _ => orderRoom_le h b) ⟨b, Finset.mem_range.2 hb, hl⟩

theorem askingRoom_max (s : State) : s.askingRoom ≤ 456 := by
  have h : s.askingRoom ≤ ∑ _b ∈ Finset.range 24, 19 := Finset.sum_le_sum fun b _ => by
    cases s.order b with
    | none => exact le_refl _
    | some o => exact (orderRoom_some o).trans (by decide)
  simpa using h

/-- Two askings that agree wherever there is less to change than in `s`. -/
def AgreeBelow (ask ask' : Nat → SectionSet → Nat → State → State) (k : Nat) : Prop :=
  ∀ b c d u, State.askingRoom u < k → ask b c d u = ask' b c d u

theorem askBackups_agree {ask ask' k} (h : AgreeBelow ask ask' k) (hk : AskLasts ask) (b : Nat) (c : SectionSet) (d : Nat)
    {u : State} (hu : u.askingRoom < k) : u.askBackups ask b c d = u.askBackups ask' b c d := by
  unfold State.askBackups
  generalize (u.tables.breaker b).backupList = bs
  induction bs generalizing u with
  | nil => rfl
  | cons x xs ih =>
    rw [List.foldl_cons, List.foldl_cons, ← h x c (d + 1) u hu]
    exact ih (lt_of_le_of_lt (askingRoom_le (hk x c (d + 1) u)) hu)

theorem askBackups_beyond {ask} (b : Nat) (hb : 24 ≤ b) (c : SectionSet) (d : Nat) (u : State) : u.askBackups ask b c d = u := by
  unfold State.askBackups
  rw [show u.tables.breaker b = .empty by unfold Tables.breaker; rw [Vector.getElem?_eq_none hb]; rfl]
  rfl

theorem position_some_lt {s : State} {b : Nat} {p : Position} (h : s.position b = some p) : b < 24 := by
  by_contra hh
  simp [State.position, Vector.getElem?_eq_none (Nat.not_lt.mp hh)] at h

theorem mergeOrder_agree {ask ask'} {s : State} {b : Nat} {o : Order} (ho : s.order b = some o)
    (h : AgreeBelow ask ask' s.askingRoom) (hk : AskLasts ask) (c : SectionSet) (d : Nat) :
    s.mergeOrder ask o c d = s.mergeOrder ask' o c d := by
  have hb := order_breaker ho
  unfold State.mergeOrder
  dsimp only
  split
  · rename_i g
    by_cases lt : o.breaker < 24
    · refine askBackups_agree h hk _ _ _ (askingRoom_lt (updateOrder_last s o.breaker (fun o => o.mergeWith c d) (fun _ => rfl) fun o =>
        ⟨by simp only [Order.mergeWith]; ext i; simp; tauto, min_le_left _ _, id, .inl⟩) lt ?_)
      rw [order_updateOrder s o.breaker o.breaker (fun o => o.mergeWith c d) fun _ => rfl, if_pos rfl, hb, ho]
      exact orderRoom_merge g.2.1 g.2.2
    · rw [askBackups_beyond _ (by omega), askBackups_beyond _ (by omega)]
  · rfl

theorem failWith_agree {ask ask' k} (h : AgreeBelow ask ask' k) (hk : AskLasts ask) (b : Nat) (r : FailReason) {u : State}
    (hu : u.askingRoom < k) : u.failWith ask b r = u.failWith ask' b r := by
  unfold State.failWith
  split
  · unfold State.escalate
    split
    · rfl
    · split
      · rfl
      · exact askBackups_agree h hk _ _ _ (lt_of_le_of_lt (askingRoom_le (markFailed_last u _ r)) hu)
  · rfl

theorem createOrder_agree {ask ask'} {s : State} {b : Nat} (hs : s.order b = none) (hlt : b < 24)
    (h : AgreeBelow ask ask' s.askingRoom) (hk : AskLasts ask) (p : Position) (c : SectionSet) (d : Nat) :
    s.createOrder ask b p c d = s.createOrder ask' b p c d := by
  unfold State.createOrder
  dsimp only
  split
  · rfl
  · unfold State.failIfCut
    split
    · refine failWith_agree h hk b .cut (lt_of_le_of_lt (askingRoom_le ((attemptSend_last _ b).trans (driveLine_last _ b))) ?_)
      set v := State.record _ _ with hv
      have l : OrdersLast s v := ((append_last s (s.newOrder b p c d)).trans (disturb_last _)).trans (.of_eq rfl)
      refine askingRoom_lt l hlt ?_
      have new : v.order b = some (s.newOrder b p c d) := by
        have e : v.trip.orders = s.trip.orders ++ [s.newOrder b p c d] := disturb_orders _
        unfold State.order at hs ⊢
        rw [e, List.find?_append, hs]
        simp [(newOrder_fields s b p c d).1]
      rw [new, hs]
      exact lt_of_le_of_lt (orderRoom_some _) (by simp [orderRoom])
    · rfl

/-- Askings that agree one level down agree. -/
theorem askOrder_agree_succ {n m : Nat} {s : State} (h : AgreeBelow (askOrder n) (askOrder m) s.askingRoom) (b : Nat)
    (c : SectionSet) (d : Nat) : askOrder (n + 1) b c d s = askOrder (m + 1) b c d s := by
  unfold askOrder
  split
  · exact mergeOrder_agree ‹_› h (askOrder_last n) c d
  · exact createOrder_agree ‹_› (position_some_lt ‹_›) h (askOrder_last n) _ c d
  · rfl

/-- Two bounds on nesting that are both above what is left to change give the same asking (R120). -/
theorem askOrder_agree (k : Nat) : ∀ (n m b : Nat) (c : SectionSet) (d : Nat) (s : State), s.askingRoom ≤ k → k < n → k < m →
    askOrder n b c d s = askOrder m b c d s := by
  induction k with
  | zero =>
    intro n m b c d s hs hn hm
    obtain ⟨n, rfl⟩ := Nat.exists_eq_succ_of_ne_zero hn.ne'
    obtain ⟨m, rfl⟩ := Nat.exists_eq_succ_of_ne_zero hm.ne'
    exact askOrder_agree_succ (fun _ _ _ _ h => by omega) b c d
  | succ k ih =>
    intro n m b c d s hs hn hm
    obtain ⟨n, rfl⟩ := Nat.exists_eq_succ_of_ne_zero (by omega : n ≠ 0)
    obtain ⟨m, rfl⟩ := Nat.exists_eq_succ_of_ne_zero (by omega : m ≠ 0)
    exact askOrder_agree_succ (fun b c d u h => ih n m b c d u (by omega) (by omega) (by omega)) b c d

/-- An asking is merged into the order on the breaker, or creates one, and what follows asks in the same way: the bound on nesting is
never reached (R110, R112, R120). -/
theorem ask_eq (s : State) (b : Nat) (c : SectionSet) (d : Nat) : s.ask b c d =
    match s.order b, s.position b with
    | some o, _ => s.mergeOrder State.ask o c d
    | none, some p => s.createOrder State.ask b p c d
    | none, none => s := by
  have enough : s.ask b c d = askOrder (512 + 1) b c d s :=
    askOrder_agree 456 _ _ b c d s (askingRoom_max s) (by decide) (by decide)
  rw [enough]
  rfl

end Sys2Proof.Machine
end

