-- ==== Sys2Proof/Laws/Records.lean ====
section
/-! SUPPORT. The records of an accepted frame (R30, R39, R42): a node that becomes LIVE makes one NODE_LIVE record, the first of the event,
and neither the reports of the change nor the delivery of the frame's contents makes another. -/

namespace Sys2Proof.Machine

/-- Records are made at the device time as it stands, none of them a NODE_LIVE. -/
def MakesRecords (s t : State) : Prop :=
  t.deviceTime = s.deviceTime ∧ ∃ later : List RecordBody, (∀ b ∈ later, b.kind ≠ .nodeLive) ∧
    t.pool = later.foldl (fun p b => p.take s.deviceTime b) s.pool

theorem MakesRecords.of_same {s t : State} (time : t.deviceTime = s.deviceTime) (pool : t.pool = s.pool) : MakesRecords s t :=
  ⟨time, [], by simp, pool⟩

theorem MakesRecords.refl (s : State) : MakesRecords s s := .of_same rfl rfl

theorem MakesRecords.trans {s t u : State} (h : MakesRecords s t) (k : MakesRecords t u) : MakesRecords s u := by
  obtain ⟨h1, m, hm, h2⟩ := h
  obtain ⟨k1, n, hn, k2⟩ := k
  exact ⟨k1.trans h1, m ++ n, fun b hb => (List.mem_append.1 hb).elim (hm b) (hn b),
    by rw [k2, h2, List.foldl_append, h1]⟩

theorem OnlyRecords.makes {ok : RecordKind → Prop} {s t : State} (h : OnlyRecords ok s t) (hk : ∀ k, ok k → k ≠ .nodeLive) :
    MakesRecords s t := by
  obtain ⟨m, h1, h2⟩ := h.pool
  exact ⟨h.time, m, fun b hb => hk _ (h2 b hb), h1⟩

theorem OnlyTrips.makes {s t : State} (h : OnlyTrips s t) : MakesRecords s t := OnlyRecords.makes h fun _ k => k.2.2.2

theorem OnlySamples.makes {s t : State} (h : OnlySamples s t) : MakesRecords s t := OnlyRecords.makes h fun _ k => k.2

theorem record_makes (s : State) (b : RecordBody) (h : b.kind ≠ .nodeLive) : MakesRecords s (s.record b) :=
  ⟨rfl, [b], by simpa using h, rfl⟩

/-! ## A light sample (R45, R137 to R142) -/

theorem putOutLamp_time (s : State) (c : Nat) : (s.putOutLamp c).deviceTime = s.deviceTime := by
  unfold State.putOutLamp State.offerTest State.pushControl State.startIfIdle State.startNext
  repeat' split
  all_goals rfl

theorem endTest_makes (s : State) (c : Nat) (r : LensResult) (a : Option Nat) : MakesRecords s (s.endTest c r a) := by
  have k := record_makes s (s.lensRecord c r) nofun
  exact (k.trans (OnlySamples.makes (leaveTesting_onlySamples _ c a))).trans
    (.of_same (putOutLamp_time _ c) (putOutLamp_same _ c).2.1)

theorem lensSample_makes (s : State) (c level : Nat) (flag : Bool) : MakesRecords s (s.lensSample c level flag) := by
  have hand : ∀ (u : State) g st, MakesRecords u (u.handOver c g st) := fun u g st => by
    unfold State.handOver
    split <;> exact .of_same rfl rfl
  have count : ∀ n p, MakesRecords s (s.countFlagged c n p) := fun n p => by
    unfold State.countFlagged
    dsimp only
    split
    · unfold State.completeWindow
      split
      · exact .of_same rfl rfl
      · refine MakesRecords.trans ?_ (endTest_makes _ _ _ _)
        refine MakesRecords.trans ?_ (hand _ _ _)
        exact .of_same rfl rfl
    · exact .of_same rfl rfl
  unfold State.lensSample
  split
  · exact .refl s
  · split
    · exact endTest_makes _ _ _ _
    · split
      · exact count _ _
      · exact endTest_makes _ _ _ _
      · exact count _ _
      · exact .refl s

theorem deliverLight_makes (s : State) (c level gap : Nat) (flag : Bool) : MakesRecords s (s.deliverLight c level flag gap) := by
  unfold State.deliverLight
  cases h : s.channel c with
  | none => exact .refl s
  | some r =>
    have own : (s.setChannel c { r with raw := some level }).channel c = some { r with raw := some level } := by
      rw [channel_setChannel_of_some h, if_pos rfl]
    have all : MakesRecords s ((s.setChannel c { r with raw := some level }).processDelivered c level gap) := by
      rw [processDelivered_eq_foldl own]
      exact MakesRecords.trans (.of_same rfl rfl) (keeps_foldl MakesRecords.refl MakesRecords.trans
        (fun s x => OnlySamples.makes (processSample_onlySamples s c x)) _ _)
    dsimp only
    split
    · exact all
    · exact all
    · exact MakesRecords.trans (.of_same rfl rfl) (lensSample_makes _ _ _ _)
    · exact .of_same rfl rfl

/-! ## A current sample (R70) and a position code (R106) -/

theorem deliverPoint_makes (s : State) (p gap : Nat) (x : Phases) : MakesRecords s (s.deliverPoint p gap x) := by
  have gapped : MakesRecords s (s.pointGap p gap) := by
    unfold State.pointGap
    split
    · exact OnlyTrips.makes (changePoint_onlyTrips s p _ _)
    · exact .refl s
  have sampled : ∀ u : State, MakesRecords u (u.pointSample p x) := fun u => by
    unfold State.pointSample
    split
    · exact OnlyTrips.makes (changePoint_onlyTrips u p _ _)
    · exact .refl u
  exact gapped.trans (sampled _)

theorem openOrder_makes (s : State) (o : Order) : MakesRecords s (s.openOrder o) := by
  have line : ∀ u : State, MakesRecords u (u.reconsiderLine o.breaker) := fun u => by
    unfold State.reconsiderLine
    split
    · split <;> exact .of_same rfl rfl
    · exact .refl u
  refine MakesRecords.trans ?_ (line _)
  refine MakesRecords.trans (.of_same rfl rfl) (record_makes _ (orderRecord .orderOpened o _) ?_)
  exact nofun

theorem reissueOrder_makes (s : State) (o : Order) (p : Position) : MakesRecords s (s.reissueOrder o p) := by
  have k : ∀ (u : State) b, MakesRecords u (((u.attemptSend b).driveLine b).failIfCut State.ask b) := fun u b =>
    OnlyTrips.makes (((attemptSend_onlyTrips u b).trans (driveLine_onlyTrips _ b)).trans (failIfCut_onlyTrips ask_onlyTrips b _))
  refine MakesRecords.trans ?_ (k _ _)
  refine MakesRecords.trans (MakesRecords.trans (.of_same rfl rfl) (record_makes _ (orderRecord .orderReissued o _) ?_))
    (.of_same rfl rfl)
  exact nofun

theorem orderSeesPosition_makes (s : State) (b : Nat) (p : Position) : MakesRecords s (s.orderSeesPosition b p) := by
  unfold State.orderSeesPosition
  split
  · exact .refl s
  · split
    · split
      · exact openOrder_makes s _
      · exact .refl s
    · split
      · exact reissueOrder_makes s _ p
      · exact .refl s

theorem deliverPosition_makes (s : State) (b : Nat) (p : Position) : MakesRecords s (s.deliverPosition b p) := by
  unfold State.deliverPosition
  split
  · exact .refl s
  · split
    · exact .refl s
    · refine MakesRecords.trans (MakesRecords.trans (.of_same rfl rfl) (record_makes _ _ ?_)) (orderSeesPosition_makes _ b p)
      exact nofun

/-! ## A frame's contents (R39), and a node that becomes LIVE (R30, R40) -/

theorem deliver_makes (s : State) (n gap : Nat) (c : Contents) : MakesRecords s (s.deliver n gap c) := by
  cases c with
  | light xs =>
    rw [deliver_light]
    refine keeps_foldl MakesRecords.refl MakesRecords.trans (fun s x => ?_) _ _
    split
    · exact deliverLight_makes _ _ _ _ _
    · exact .refl s
  | current xs =>
    rw [deliver_current]
    refine keeps_foldl MakesRecords.refl MakesRecords.trans (fun s x => ?_) _ _
    split
    · exact deliverPoint_makes _ _ _ _
    · exact .refl s
  | positions xs =>
    rw [deliver_positions]
    refine keeps_foldl MakesRecords.refl MakesRecords.trans (fun s x => ?_) _ _
    split
    · exact deliverPosition_makes _ _ _
    · exact .refl s

theorem tellLive_makes (s : State) (n : Nat) : MakesRecords s (State.tellLive n s) := by
  refine (keeps_foldl MakesRecords.refl MakesRecords.trans (fun s c => ?_) _ _).trans
    (keeps_foldl MakesRecords.refl MakesRecords.trans (fun s p => ?_) _ _)
  · unfold State.channelLive
    split
    · split
      · exact OnlyTrips.makes (changeChannel_onlyTrips s c _ _)
      · exact .refl s
    · exact .refl s
  · unfold State.pointLive
    split
    · split
      · exact OnlyTrips.makes (changePoint_onlyTrips s p _ _)
      · exact .refl s
    · exact .refl s

/-- A node that becomes LIVE makes its NODE_LIVE record first, and no other (R30, R40, R42). -/
theorem becomeLive_makes (s : State) (n : Nat) (r : NodeRec) (seq : Byte) :
    MakesRecords (s.record (nodeRecord .nodeLive (if r.live = .stale then .alarm else .notice) n none))
      (s.becomeLive n r seq) := by
  have told : ∀ u : State, MakesRecords u (u.tellNeighbours (State.tellLive n)) := fun u => by
    have cut : ∀ u : State, MakesRecords u u.recomputeCut := fun u => OnlyTrips.makes (recomputeCut_onlyTrips u)
    have drawn : MakesRecords u { u with draws := u.draws + 1 } := .of_same rfl rfl
    unfold State.tellNeighbours
    split
    · dsimp only
      split
      · exact (drawn.trans (cut _)).trans (tellLive_makes _ _)
      · exact (drawn.trans (tellLive_makes _ _)).trans (cut _)
    · exact tellLive_makes _ _
  exact MakesRecords.trans (MakesRecords.trans (.of_same rfl rfl) (told ((s.setNode n { r with live := .live, lastSeq := some seq }).record
    (nodeRecord .nodeLive (if r.live = .stale then .alarm else .notice) n none)))) (.of_same rfl rfl)

end Sys2Proof.Machine
end

