-- ==== Sys2Proof/Laws/Room.lean ====
section
/-! SUPPORT. The frames that wait for room (R7, R22, R24, R136, R168): what they take of the room behind a frame that is being sent. -/

namespace Sys2Proof.Machine

open Sys2Proof.Safety

/-- Held TEST frames take the room of the CONTROL queue in their order, as many as fit, while a frame is being sent (R136). -/
theorem offerHeldTests_busy (n : Nat) : ∀ {s : State}, Busy s → s.lens.held.length ≤ n →
    s.offerHeldTests n = { s with
      loop := { s.loop with controlQ := s.loop.controlQ ++ (s.lens.held.take (4 - s.loop.controlQ.length)).map .test }
      lens := { s.lens with held := s.lens.held.drop (4 - s.loop.controlQ.length) } } := by
  induction n with
  | zero =>
    intro s hb h
    have : s.lens.held = [] := List.length_eq_zero_iff.1 (by omega)
    unfold State.offerHeldTests
    simp [this]
    rw [← this]
  | succ n ih =>
    intro s hb h
    unfold State.offerHeldTests
    cases hh : s.lens.held with
    | nil => simp; rw [← hh]
    | cons f rest =>
      dsimp only
      split <;> rename_i hr
      · simp only [State.controlRoom, Config.controlCapacity, decide_eq_true_eq] at hr
        have pushed := pushControl_busy (s := s.setLens { s.lens with held := rest }) hb (.test f)
        refine (congrArg (fun u : State => u.offerHeldTests n) pushed).trans ((ih (s := (s.setLens { s.lens with
          held := rest }).setLoop { s.loop with controlQ := s.loop.controlQ ++ [.test f] }) hb ?_).trans ?_)
        · simpa [hh, State.setLens, State.setLoop] using h
        obtain ⟨k, hk⟩ : ∃ k, 4 - s.loop.controlQ.length = k + 1 := ⟨_, (Nat.sub_add_cancel (by omega)).symm⟩
        have hk2 : 4 - (s.loop.controlQ.length + 1) = k := by omega
        simp [State.setLens, State.setLoop, hk, hk2]
      · simp only [State.controlRoom, Config.controlCapacity, decide_eq_true_eq] at hr
        have : 4 - s.loop.controlQ.length = 0 := by omega
        simp [this]; rw [← hh]

/-- Held responses take the room of the ROUTINE queue in their order, as many as fit, while a frame is being sent (R168). -/
theorem offerHeldResponses_busy (n : Nat) : ∀ {s : State}, Busy s → s.agent.held.length ≤ n →
    s.offerHeldResponses n = { s with
      loop := { s.loop with routineQ := s.loop.routineQ ++ s.agent.held.take (4 - s.loop.routineQ.length) }
      agent := { s.agent with held := s.agent.held.drop (4 - s.loop.routineQ.length) } } := by
  induction n with
  | zero =>
    intro s hb h
    have : s.agent.held = [] := List.length_eq_zero_iff.1 (by omega)
    unfold State.offerHeldResponses
    simp [this]
    rw [← this]
  | succ n ih =>
    intro s hb h
    unfold State.offerHeldResponses
    cases hh : s.agent.held with
    | nil => simp; rw [← hh]
    | cons f rest =>
      dsimp only
      split <;> rename_i hr
      · simp only [State.routineRoom, Config.routineCapacity, decide_eq_true_eq] at hr
        have pushed := pushRoutine_busy (s := { s with agent := { s.agent with held := rest } }) hb f
        refine (congrArg (fun u : State => u.offerHeldResponses n) pushed).trans ((ih (s := ({ s with agent := { s.agent with
          held := rest } } : State).setLoop { s.loop with routineQ := s.loop.routineQ ++ [f] }) hb ?_).trans ?_)
        · simpa [hh, State.setLoop] using h
        obtain ⟨k, hk⟩ : ∃ k, 4 - s.loop.routineQ.length = k + 1 := ⟨_, (Nat.sub_add_cancel (by omega)).symm⟩
        have hk2 : 4 - (s.loop.routineQ.length + 1) = k := by omega
        simp [State.setLoop, hk, hk2]
      · simp only [State.routineRoom, Config.routineCapacity, decide_eq_true_eq] at hr
        have : 4 - s.loop.routineQ.length = 0 := by omega
        simp [this]; rw [← hh]

/-- The state `s` with Loop Port `l`, after what waits has taken the room that `l` leaves while a frame is being sent. -/
def State.offered (s : State) (l : LoopPort) (tests : List TestFrame) (responses : List Response) : State :=
  let claimed : LoopPort := if l.claimWaiting = true ∧ l.controlQ.length < 4 then
    { l with claimWaiting := false, controlQ := l.controlQ ++ [.claim] } else l
  let room := if claimed.claimWaiting then 0 else 4 - claimed.controlQ.length
  let space := 4 - l.routineQ.length
  { s with
    loop := { claimed with
      controlQ := claimed.controlQ ++ (tests.take room).map .test
      routineQ := l.routineQ ++ responses.take space }
    lens := { s.lens with held := tests.drop room }
    agent := { s.agent with held := responses.drop space } }

/-- What waits takes the room, with a frame being sent (R7, R22, R24, R136, R168): the waiting CLAIM frame first, then held TEST frames
unless it still waits, and held responses. -/
theorem settleRoom_busy {s : State} (hb : Busy s) : s.settleRoom = State.offered s s.loop s.lens.held s.agent.held := by
  unfold State.offered
  extract_lets claimed room space
  have c : s.queueWaitingClaim = s.setLoop claimed := by
    unfold State.queueWaitingClaim
    simp only [claimed, State.controlRoom, Config.controlCapacity, Bool.and_eq_true, decide_eq_true_eq]
    split
    · rw [pushControl_busy (s := s.setLoop { s.loop with claimWaiting := false }) hb]; rfl
    · rfl
  have cb : claimed.sending = s.loop.sending := by simp only [claimed]; split <;> rfl
  have cr : claimed.routineQ = s.loop.routineQ := by simp only [claimed]; split <;> rfl
  have q : s.tellControlRoom = { s with
      loop := { claimed with controlQ := claimed.controlQ ++ (s.lens.held.take room).map .test }
      lens := { s.lens with held := s.lens.held.drop room } } := by
    unfold State.tellControlRoom State.queueHeldTests
    rw [c]
    show (if claimed.claimWaiting = true then _ else _) = _
    by_cases h : claimed.claimWaiting = true
    · rw [if_pos h]; simp only [room, h, if_true]; simp [State.setLoop]; rw [← h]
    · rw [if_neg h, offerHeldTests_busy _ (s := s.setLoop claimed) (by unfold Busy; exact cb ▸ hb) (le_refl _)]
      simp only [room, if_neg h]; rfl
  unfold State.settleRoom State.queueHeldResponses
  rw [q, offerHeldResponses_busy _ (by unfold Busy; exact cb ▸ hb) (le_refl _)]
  simp only [space, cr]
  rfl

end Sys2Proof.Machine
end

