-- ==== Sys2Proof/Tests/Slice0.lean ====
section
/-! SUPPORT. Tests: terms that WellFormed refuses, values worked out by hand from the spec's rules and its worked cases, and a
witness for the hypotheses of every statement. -/

set_option Elab.async false

namespace Sys2Proof.Tests
open Sys2Proof.Machine Sys2Proof.Safety

/-! ## Terms that WellFormed refuses, one for each check -/

theorem test_wellFormed_refuses_node_frames :
    (Instr.lightSample 0 0 []).wellFormed = false ∧ (Instr.currentSample 0 0 []).wellFormed = false ∧
    (Instr.position 0 0 []).wellFormed = false ∧ (Instr.lightSample 11 0 (List.replicate 201 0)).wellFormed = false ∧
    (Instr.lightSample 11 0 (List.replicate 200 0)).wellFormed = true ∧
    (Instr.claim 0 (List.replicate 201 0)).wellFormed = false := by decide +kernel

theorem test_wellFormed_refuses_indices :
    (Instr.staleTimerExpiry 48).wellFormed = false ∧ (Instr.flickerWindowClose ⟨96, 11, 0, []⟩).wellFormed = false ∧
    (Instr.flickerWindowClose ⟨95, 0, 0, []⟩).wellFormed = false ∧
    (Instr.flickerWindowClose ⟨95, 11, 0, List.replicate 201 0⟩).wellFormed = false ∧
    (Instr.stretchExpiry ⟨24, 12, 0, []⟩).wellFormed = false ∧ (Instr.stretchExpiry ⟨23, 0, 0, []⟩).wellFormed = false ∧
    (Instr.stretchExpiry ⟨23, 12, 0, []⟩).wellFormed = true ∧ (Instr.persistenceTimerExpiry 16).wellFormed = false ∧
    (Instr.resendTimerExpiry 24).wellFormed = false ∧ (Instr.failureTimerExpiry 24).wellFormed = false ∧
    (Instr.minimumPulseTimerExpiry 4).wellFormed = false ∧ (Instr.minimumPulseTimerExpiry 3).wellFormed = true := by
  decide +kernel

theorem test_wellFormed_refuses_requests :
    (Instr.readStatus 0 1 []).wellFormed = false ∧ (Instr.writeShadow 9 1 (List.replicate 199 0)).wellFormed = false ∧
    (Instr.writeShadow 9 1 (List.replicate 198 0)).wellFormed = true ∧ (Instr.setBlockOn 0 1 0).wellFormed = false ∧
    (Instr.setBlockOff 0 1 0).wellFormed = false ∧ (Instr.unknownRequestCode 9 1 0x20 []).wellFormed = false ∧
    (Instr.unknownRequestCode 9 1 0x40 []).wellFormed = true ∧ (Instr.hardResetEnd 2700).wellFormed = false ∧
    (Instr.hardResetEnd 2701).wellFormed = true := by decide +kernel

/-! ## A site

Six nodes (light 11, current 12, breaker 13, an unused breaker node 14, breaker 15, light 16), two channels, one point and three
breakers of section 0; breaker 0 has line 0 and backup 1, breaker 1 line 1 alone, breaker 2 no line. -/

/-- The state a command leaves. -/
def run (s : State) (c : Instr) : State :=
  match exec c s with
  | .next t => t
  | .fault _ => s
  | .refused _ => s

/-- The state that commands leave, one after another. -/
def runAll (s : State) (cs : List Instr) : State := cs.foldl run s

/-- A channel image of section 0: T 1200, D 40, Q 20000, W 400, F 4, G0 320, Pref 2000, test window 16. -/
def channelImage (node : Byte) : List Byte :=
  [1, node, 0, 0, 0x04, 0xB0, 0, 40, 0x4E, 0x20, 0x01, 0x90, 4, 0x01, 0x40, 0x07, 0xD0, 16]

/-- The site's tables, from entry images (R195). -/
def siteTables : Tables :=
  [(TableId.node, 0, ([1, 11, 1, 1, 1, 10] : List Byte)), (.node, 1, [1, 12, 2, 1, 2, 5]), (.node, 2, [1, 13, 3, 1, 3, 8]),
    (.node, 3, [1, 14, 3, 1, 4, 1]), (.node, 4, [1, 15, 3, 1, 5, 8]), (.node, 5, [1, 16, 1, 1, 6, 10]),
    (.channel, 0, channelImage 0), (.channel, 1, channelImage 5),
    (.point, 0, [1, 1, 0, 0x05, 0x9A, 0x0C, 0x00, 20]),
    (.breaker, 0, [1, 2, 0, 0, 0, 60, 1, 1, 0, 0]), (.breaker, 1, [1, 0xFF, 0, 1, 0, 60, 0, 0, 0, 0]),
    (.breaker, 2, [1, 4, 0, 0xFF, 0, 60, 0, 0, 0, 0]),
    (.sect, 0, [1, 1, 1, 1, 0, 0, 0, 0, 0, 0, 0, 0, 1, 0, 0, 0, 0, 0, 0])].foldl
      (fun t x => t.write x.1 x.2.1 x.2.2) Tables.empty

/-- The site after a hard reset at 3.3 V: PROTECTING, its nodes ABSENT, its first CLAIM frame being sent. -/
def site : State :=
  run { State.reset with store := ⟨.valid, true, siteTables⟩, hardReset := some ⟨false, false⟩ } (.hardResetEnd 3300)

/-- A channel record of the site with data: its integrator, its light state, and below threshold or not. -/
def channelRec (integ : Nat) (light : LightState) (below : Bool) : ChannelRec :=
  ⟨some 100, some 125, 320, integ, light, some below, none, false, light = .lit, .normal, .normal⟩

/-- A channel's record and what the view holds of it. -/
def withChannel (s : State) (c : Nat) (r : ChannelRec) : State := (s.setChannel c r).setChannelView c r.view

/-- Section 0 in a state of its own. -/
def withSection (s : State) (state : SectionState) : State := s.setSection 0 ⟨state, false, false, .stopped, false, false⟩

/-- The site with every node but 14 LIVE, its last sequence number 0: channels dark, no current, breakers closed. -/
def heard : State :=
  let s := [0, 1, 2, 4, 5].foldl (fun (s : State) n => s.setNode n ⟨.live, some 0, .running 50⟩) site
  let s := [0, 1].foldl (fun (s : State) c => withChannel s c (channelRec 0 .dark true)) s
  let s := (s.setPoint 0 ⟨0, .normal⟩).setPointView 0 ⟨false, .normal⟩
  [0, 1, 2].foldl (fun (s : State) b => s.setPosition b .atClosed) s

/-- Channel 0 is bright: LIT, and section 0 LIGHT. -/
def lit : State :=
  let s := withChannel heard 0 (channelRec 20265 .lit false)
  s.setSection 0 ⟨.light, false, false, .running 4000, false, false⟩

/-- Current has then confirmed the light: section 0 TRIPPED, with an ISSUED order on breaker 0. -/
def tripped : State :=
  let s := withSection (withChannel heard 0 (channelRec 20265 .lit false)) .tripped
  (s.setOrders [⟨0, .issued, 1, 0, 0, 0, .running 600, .running 20, false⟩]).setLine 0 ⟨true, .running 1000⟩

/-- The order on breaker 0 has failed, and its backup 1 has an order of depth 1. -/
def failed : State := run tripped (.failureTimerExpiry 0)

/-- Breaker 0 has opened. -/
def opened : State := run tripped (.position 13 1 [1, 1])

/-- The loop is CLOSED and its output idle. -/
def closed : State := runAll heard [.sendingComplete, .claim 0 [6, 11, 12, 13, 14, 15, 16]]

/-- The loop is OPEN: break position 5, breaker 2 cut. -/
def opening : State := runAll heard [.sendingComplete, .claimTimerExpiry]

/-- A validation is under way. -/
def validating : State := run heard (.activate 9 7 [])

/-- Channel 0 is under test, its start wait running; then its test window has begun. -/
def testing : State := run heard (.testLens 9 8 [0])
/-- The test window of channel 0 has begun. -/
def measuring : State := run testing (.lightSample 11 1 [1, 0x85, 0xDC])

/-- A state with other queues and held frames. -/
def withQueues (s : State) (tripQ : List TripFrame) (controlQ : List ControlFrame) (routineQ : List Response) : State :=
  s.setLoop { s.loop with tripQ := tripQ, controlQ := controlQ, routineQ := routineQ }

/-- The state with its output idle and its queues empty. -/
def idle (s : State) : State :=
  s.setLoop { s.loop with sending := none, tripQ := [], controlQ := [], routineQ := [] }

/-- Some response, and some TEST frame. -/
def someResponse : Response := ⟨9, 1, 0x01, .ok, []⟩
/-- Some TEST frame. -/
def someTest : TestFrame := ⟨11, 0, true⟩

/-- The OPEN loop with another image of breaker 2, which is cut and has no line: its backup list, and the orders held. -/
def cutOff (backups : List Byte) (orders : List Order) : State :=
  { opening with
    agent := { opening.agent with active := siteTables.write .breaker 2 ([1, 4, 0, 0xFF, 0, 60] ++ backups) }
    trip := { opening.trip with orders := orders } }

/-- The site with two channels on node 11, two points on node 12 and two breakers on node 13, numbered 0 and 1 on each. -/
def paired : State :=
  let tables := [(TableId.node, 0, ([1, 11, 1, 2, 1, 10] : List Byte)), (.node, 1, [1, 12, 2, 2, 2, 5]), (.node, 2, [1, 13, 3, 2, 3, 8]),
    (.channel, 1, [1, 0, 1, 0, 0x04, 0xB0, 0, 40, 0x4E, 0x20, 0x01, 0x90, 4, 0x01, 0x40, 0x07, 0xD0, 16]),
    (.point, 1, [1, 1, 1, 0x05, 0x9A, 0x0C, 0x00, 20]), (.breaker, 1, [1, 2, 1, 1, 0, 60, 0, 0, 0, 0])].foldl
      (fun t x => t.write x.1 x.2.1 x.2.2) siteTables
  let s : State := { heard with agent := { heard.agent with active := tables } }
  (s.setPoint 1 ⟨0, .normal⟩).setPointView 1 ⟨false, .normal⟩

/-! ## Values worked out from the rules -/

/-- R192: the CRC of the bytes 31h to 39h is 29B1h. -/
theorem test_crc : crc16 [0x31, 0x32, 0x33, 0x34, 0x35, 0x36, 0x37, 0x38, 0x39] = 0x29B1 := by decide +kernel

/-- R46, R71, R141: compensated levels, scaled currents and gains. -/
theorem test_arithmetic :
    compensate 3000 320 = 3750 ∧ compensate 1000 366 = 1429 ∧ compensate 4095 320 = 4095 ∧
    scaled { PointEntry.empty with scale := 1434 } 9000 = 3150 ∧
    scaled { PointEntry.empty with scale := 8192 } 65535 = 65535 ∧
    gainResult 2000 1400 320 = (.done, 366, .normal) ∧ gainResult 2000 1200 320 = (.done, 427, .normal) ∧
    gainResult 2000 2100 320 = (.done, 256, .normal) ∧ gainResult 2000 400 320 = (.dirty, 1023, .dirty) ∧
    gainResult 2000 240 320 = (.blocked, 320, .dirty) := by decide +kernel

/-- R147 to R157: the site's tables pass validation, and a second use of a loop position fails check 1 at its entry. -/
theorem test_validate :
    siteTables.validate = none ∧
    (siteTables.write .node 1 [1, 12, 2, 1, 1, 5]).validate = some ⟨.node, 1, 1⟩ ∧
    (siteTables.write .channel 1 (channelImage 2)).validate = some ⟨.channel, 1, 2⟩ := by decide +kernel

/-- Log entry 1: `State.reset` is what a hard reset leaves of a part with a blank store at 3.3 V. -/
theorem test_reset : run { State.reset with hardReset := some ⟨true, true⟩ } (.hardResetEnd 3300) = State.reset := by
  decide +kernel

/-- R3, R14 and R1: the bytes of a SUPERVISION frame, worked out from R192, restart the supervision timer; with a wrong CRC they do
nothing. -/
theorem test_frameArrival :
    (run closed (.frameArrival ((⟨0, 0, 0x30, 7, []⟩ : Frame).bytes))).loop.supervisionTimer = .running 40 ∧
    run closed (.frameArrival [0, 0, 0x30, 7, 0, 0, 0]) = closed := by decide +kernel

/-- R9, R10, R12: the claim closes the loop, with the positions it was claimed in. -/
theorem test_claim :
    closed.loop.state = .loopClosed ∧ closed.loop.result = .matched ∧
    (run (run heard .sendingComplete) (.claim 0 [2, 11, 13])).loop.result = .mismatch 2 := by decide +kernel

/-- R11, R16, R20, R21: node 14 is not LIVE at position 4, so the break is at 5 and breaker 2, at 5, is cut. -/
theorem test_claimTimerExpiry :
    opening.loop.state = .loopOpen ∧ opening.loop.breakPos = some 5 ∧ opening.loop.cutSet = [2] := by decide +kernel

/-- R30, R34, R35: sequence numbers 250, 251, 2 and 0 give differences 1, 7 and 254. -/
theorem test_position_sequence :
    ((runAll site [.position 14 250 [1, 2], .position 14 251 [1, 2], .position 14 2 [1, 2]]).pool.generalChain.map
      fun x => x.record.body.kind) = [.reset, .nodeLive] ∧
    ((runAll site [.position 14 250 [1, 2], .position 14 251 [1, 2], .position 14 2 [1, 2],
      .position 14 0 [1, 2]]).pool.generalChain.getLast?.map fun x => (x.record.body.kind, x.record.body.value)) =
      some (.nodeResync, some 254) := by decide +kernel

/-- R36, R39, R192: the rule's worked payload, 02 0B B8 82 B2, gives channel 0 the level 3000 and channel 1 the level 690: 3750 is 2550
above T, and 862 is below it. -/
theorem test_lightSample_two :
    let t := run paired (.lightSample 11 1 [2, 0x0B, 0xB8, 0x82, 0xB2])
    (t.channel 0).map (fun r => (r.raw, r.comp, r.integ)) = some (some 3000, some 3750, 2550) ∧
    (t.channel 1).map (fun r => (r.raw, r.comp, r.integ)) = some (some 690, some 862, 0) := by decide +kernel

/-- R35, R39: the same payload 129 numbers on is a resynchronisation: no lost sample is held. -/
theorem test_lightSample_resync :
    let t := run paired (.lightSample 11 129 [2, 0x0B, 0xB8, 0x82, 0xB2])
    (t.channel 0).map ChannelRec.integ = some 2550 ∧
    (t.pool.generalChain.getLast?.map fun x => (x.record.body.kind, x.record.body.value)) = some (.nodeResync, some 129) := by
  decide +kernel

/-- R37 to R39: the second point and the second breaker of a frame take the frame's second samples. -/
theorem test_second_samples :
    (run paired (.currentSample 12 1 [2, 0, 0, 0, 0, 0, 0, 0, 0, 0x40, 0, 0, 0])).point 1 = some ⟨20, .normal⟩ ∧
    (run paired (.position 13 1 [2, 2, 3])).position 1 = some .moving := by decide +kernel

/-- R113, R136, R192, R193: frames at LOOP_TX; an age of 300 ms is 012Ch. -/
theorem test_loopTx :
    (⟨.trip ⟨0, 13, 4, 1, 300⟩, 9⟩ : Sending).toFrame.bytes.take 9 = [13, 0, 0x20, 9, 4, 4, 1, 0x01, 0x2C] ∧
    (⟨.control .claim, 7⟩ : Sending).toFrame.bytes.take 6 = [0, 0, 0x32, 7, 1, 0] ∧
    (⟨.response ⟨9, 8, 0x20, .refusedState, []⟩, 7⟩ : Sending).toFrame.bytes.take 8 = [9, 0, 0x41, 7, 3, 8, 0x20, 5] := by
  decide +kernel

/-- R194: an ORDER_ISSUED record of section 0 and breaker 0, depth 0, ISSUED: marks 4 + 32 + 128. -/
theorem test_record_image :
    (⟨0x0102, 0x03040506, { kind := .orderIssued, category := .trip, sect := some 0, breaker := some 7, value := some (value2 0 1) }⟩ :
      Record).image = [0x01, 0x02, 0x03, 0x04, 0x05, 0x06, 0x03, 0xA4, 0, 7, 0, 0, 0, 1] := by decide +kernel

/-- R48 to R56: a channel at 5100 with a flicker window (1, 1), and a sample six lost ones later. Four held samples of 3750 add 2550 each,
two missing samples take 40 each, and the received one of 3750 adds 2550. -/
theorem test_lightSample_gap :
    let r : ChannelRec := { channelRec 5100 .rising false with comp := some 3750, window := some ⟨1, 1⟩ }
    ((run (withChannel heard 0 r) (.lightSample 11 7 [1, 0x0B, 0xB8])).channel 0).map
      (fun r => (r.integ, r.light, r.window)) = some (17770, .rising, some ⟨2, 8⟩) := by decide +kernel

/-- R55, R56: the sample that brings a window to 400 closes it, after its own crossing is counted; no earlier one does. -/
theorem test_flickerWindowClose :
    let s (elapsed : Nat) : State :=
      withChannel heard 0 { channelRec 0 .dark true with window := some ⟨3, elapsed⟩, flicker := true }
    let left (t : State) := (t.channel 0).map fun r => (r.window, r.flicker)
    left (run (s 399) (.flickerWindowClose ⟨0, 11, 1, [1, 0, 0]⟩)) = some (none, false) ∧
    left (run (s 399) (.flickerWindowClose ⟨0, 11, 1, [1, 0x0B, 0xB8]⟩)) = some (some ⟨0, 0⟩, true) ∧
    run (s 398) (.flickerWindowClose ⟨0, 11, 1, [1, 0, 0]⟩) = s 398 := by decide +kernel

/-- A point at a stretch counter of its own. -/
def withStretch (n : Nat) : State := (heard.setPoint 0 ⟨n, .normal⟩).setPointView 0 ⟨0 < n, .normal⟩

/-- R72 to R74: a counter of 20 runs out at the twentieth sample below pickup or lost, and stands until then. -/
theorem test_stretchExpiry :
    run (withStretch 20) (.stretchExpiry ⟨0, 12, 1, [1, 0, 0, 0, 0, 0, 0]⟩) = withStretch 20 ∧
    run (withStretch 20) (.stretchExpiry ⟨0, 12, 19, [1, 0, 0, 0, 0, 0, 0]⟩) = withStretch 20 ∧
    (run (withStretch 20) (.stretchExpiry ⟨0, 12, 20, [1, 0, 0, 0, 0, 0, 0]⟩)).point 0 = some ⟨0, .normal⟩ ∧
    (run (withStretch 1) (.stretchExpiry ⟨0, 12, 1, [1, 0, 0, 0, 0, 0, 0]⟩)).point 0 = some ⟨0, .normal⟩ ∧
    run (withStretch 20) (.stretchExpiry ⟨0, 12, 0, [1, 0, 0, 0, 0, 0, 0]⟩) = withStretch 20 := by decide +kernel

/-- R88, R89, R110, R113, R124: the trip of section 0 asks for breaker 0, queues its TRIP frame and drives line 0. -/
theorem test_currentSample_trips :
    let t := run lit (.currentSample 12 1 [1, 0x40, 0, 0, 0, 0, 0])
    (t.sectionRec 0).state = .tripped ∧
    t.trip.orders.map (fun o => (o.breaker, o.state, o.depth)) = [(0, .issued, 0)] ∧
    t.loop.tripQ = [⟨0, 13, 0, 0, 0⟩] ∧ t.line 0 = ⟨true, .running 1000⟩ := by decide +kernel

/-- R119, R120: the failure escalates to breaker 1, which has line 1 and no node. -/
theorem test_failureTimerExpiry :
    failed.trip.orders.map (fun o => (o.breaker, o.state, o.depth)) = [(0, .failed, 0), (1, .issued, 1)] ∧
    failed.line 1 = ⟨true, .running 1000⟩ := by decide +kernel

/-- R116, R124: breaker 0 opens; its line stays active until its minimum pulse is over. -/
theorem test_minimumPulseTimerExpiry :
    opened.trip.orders.map (fun o => (o.state, o.failure, o.resend)) = [(.opened, .stopped, .stopped)] ∧
    opened.line 0 = ⟨true, .running 1000⟩ ∧ (run opened (.minimumPulseTimerExpiry 0)).line 0 = ⟨false, .stopped⟩ := by
  decide +kernel

/-- R96, R100: a section with a LIT channel is not released; dark again it is, its order goes and the answer is OK. -/
theorem test_release :
    let released := run (runAll tripped [.staleTimerExpiry 0]) (.release 9 1 [0])
    (run tripped (.release 9 1 [0])).trip.orders.length = 1 ∧
    (run tripped (.release 9 1 [0])).loop.routineQ = [⟨9, 1, 0x20, .refusedState, []⟩] ∧
    released.trip.orders = [] ∧ released.loop.routineQ = [⟨9, 1, 0x20, .ok, []⟩] := by decide +kernel

/-- R135 to R138: the test is accepted, its TEST(on) queued, and its first flagged sample begins the window. -/
theorem test_testLens :
    testing.lens.state = .starting ∧ testing.loop.controlQ = [.test ⟨11, 0, true⟩] ∧
    measuring.lens.state = .measuring ∧ measuring.lens.count = 1 ∧ measuring.lens.peak = 1500 := by decide +kernel

/-- The test of channel 0 with a Pref of 400: its ceiling is 1200. -/
def lowCeiling : State := { testing with agent := { testing.agent with
  active := siteTables.write .channel 0
    [1, 0, 0, 0, 0x04, 0xB0, 0, 40, 0x4E, 0x20, 0x01, 0x90, 4, 0x01, 0x40, 0x01, 0x90, 16] } }

/-- R137, R140, R63: 1201 is above the ceiling; it ends the test and is processed, 1201 × 320 / 256 = 1501 and 301 above T. -/
theorem test_lightSample_aborts :
    let t := run lowCeiling (.lightSample 11 1 [1, 0x84, 0xB1])
    t.lens.state = .idle ∧ t.loop.controlQ = [.test ⟨11, 0, true⟩, .test ⟨11, 0, false⟩] ∧
    (t.channel 0).map (fun r => (r.integ, r.cond)) = some (301, .normal) ∧
    (t.pool.generalChain.getLast?.map fun x => x.record.body.value) = some (some (5 * 2 ^ 24 + 320)) ∧
    (run lowCeiling (.lightSample 11 1 [1, 0x84, 0xB0])).lens.state = .measuring := by decide +kernel

/-- The same test while the channel's flicker window is at an elapsed count of its own. -/
def windowUnderTest (elapsed : Nat) : State := lowCeiling.setChannel 0
  { channelRec 0 .dark true with cond := .testing, window := some ⟨1, elapsed⟩, flicker := true }

/-- R56, R63: the sample that aborts a test is processed, and brings the window to 400; no sample does that the test counts. -/
theorem test_flickerWindowClose_aborts :
    let close (level : Byte) : Instr := .flickerWindowClose ⟨0, 11, 1, [1, 0x84, level]⟩
    ((run (windowUnderTest 399) (close 0xB1)).channel 0).map (fun r => (r.window, r.flicker, r.cond, r.integ)) =
      some (none, false, .normal, 301) ∧
    (run (windowUnderTest 399) (close 0xB1)).lens.state = .idle ∧
    run (windowUnderTest 398) (close 0xB1) = windowUnderTest 398 ∧
    run (windowUnderTest 399) (close 0xB0) = windowUnderTest 399 := by decide +kernel

/-- The test of channel 0 with all but one of its 16 samples counted. -/
def lastSample : State := { measuring with lens := { measuring.lens with count := 15 } }

/-- R138, R141, R142: the sixteenth sample completes the window, and a peak of 1500 gives (512000 + 750) / 1500 = 341. -/
theorem test_testWindowComplete :
    let t := run lastSample .testWindowComplete
    t.lens.state = .idle ∧ (t.channel 0).map (fun r => (r.gain, r.cond)) = some (341, .normal) ∧
    run measuring .testWindowComplete = measuring := by decide +kernel

/-- R143, R146 and R32: the node of the channel under test goes stale, and no TEST(off) is built; the peak of 1500 and the gain of 320
are in its record. -/
theorem test_staleTimerExpiry :
    let t := run measuring (.staleTimerExpiry 0)
    t.lens.state = .idle ∧ t.loop.controlQ = measuring.loop.controlQ ∧
    (t.channel 0).map ChannelRec.cond = some .noData ∧
    (t.pool.generalChain.drop measuring.pool.generalChain.length).map (fun x => (x.record.body.kind, x.record.body.value)) =
      [(.nodeStale, none), (.lensResult, some (4 * 2 ^ 24 + 1500 * 2 ^ 12 + 320))] := by decide +kernel

/-- R182 and R183: with every slot taken a NOTICE is dropped and marks the chain, and a TRIP record takes the oldest GENERAL slot. -/
theorem test_full_pool :
    let p : EventPool :=
      { EventPool.empty with free := [], generalChain := [⟨5, ⟨1, 0, { kind := .reset, category := .notice }⟩⟩] }
    (p.take 0 { kind := .supplyOk, category := .notice }).generalTruncated = true ∧
    (p.take 0 { kind := .orderIssued, category := .trip }).tripChain.map Slot.number = [5] ∧
    (p.take 0 { kind := .orderIssued, category := .trip }).generalChain = [] := by decide +kernel

/-- R26, R177: the soft reset takes effect when its answer has been sent, and keeps the lockout and the order. -/
theorem test_softResetTakesEffect :
    let s := runAll (idle tripped) [.softReset 9 1 [], .sendingComplete]
    s.supply.cause = .soft ∧ (s.sectionRec 0).state = .tripped ∧ s.trip.orders.length = 1 ∧
    s.loop.sending = some ⟨.control .claim, 2⟩ ∧ (s.channel 0).map ChannelRec.cond = some .noData := by decide +kernel

/-- R160, R161, R188: an undisturbed validation of the site's own tables is answered OK and the store write begins. -/
theorem test_validationComplete :
    let s := run validating .validationComplete
    s.agent.state = .idle ∧ s.store.state = .writing ∧ s.loop.routineQ = [⟨9, 7, 0x12, .ok, []⟩] ∧
    (s.pool.generalChain.drop validating.pool.generalChain.length).map
      (fun x => (x.record.body.kind, x.record.body.value)) = [(.tablesActivated, some 1)] := by decide +kernel

/-- R94, R95: a section with a LIT channel goes LIGHT, with 500 ms of persistence; once its one point has no data it makes one
LIGHT_UNCONFIRMABLE record, and no second one. -/
theorem test_light_entry :
    let bright := withChannel heard 0 (channelRec 20265 .lit false)
    let blind := bright.setPointView 0 ⟨false, .noData⟩
    let kinds (s : State) : List RecordKind :=
      (s.pool.generalChain.drop heard.pool.generalChain.length).map fun x => x.record.body.kind
    (bright.evaluate 0 .other).sectionRec 0 = ⟨.light, false, false, .running 5000, false, false⟩ ∧
    kinds (bright.evaluate 0 .other) = [] ∧ kinds (blind.evaluate 0 .other) = [.lightUnconfirmable] ∧
    kinds ((blind.evaluate 0 .other).evaluate 0 .other) = [.lightUnconfirmable] := by decide +kernel

/-! ## Witnesses: states and operands that meet the hypotheses of each statement, clause by clause -/

theorem witness_stepTakesFrontCommand :
    ({ site with pending := [.beacon, .resetnLow] } : State).pending = .beacon :: [.resetnLow] :=
  rfl

theorem witness_idleStepRunsTime :
    heard.pending = [] ∧ Up heard ∧ heard.dueExpiry = none ∧ closed.pending = [] ∧ Up closed ∧
    closed.dueExpiry = none ∧ closed.loop.supervisionTimer = .running (39 + 1) ∧
    (run site .sendingComplete).dueExpiry = none ∧ (run site .sendingComplete).loop.claimTimer = .running (99 + 1) ∧
    (let s := closed.setLoop { closed.loop with sendTimer := .running 0 }
     s.pending = [] ∧ Up s ∧ s.dueExpiry = some .supervisionSendTimerExpiry) := by decide +kernel

/-- Every timer that the statement names runs in some state with none due. -/
theorem witness_idleStepRunsTime_timers :
    (closed.loop.sendTimer = .running (9 + 1) ∧ opening.dueExpiry = none ∧ opening.loop.beaconTimer = .running (19 + 1)) ∧
    (lit.pending = [] ∧ Up lit ∧ lit.dueExpiry = none ∧ lit.node 0 = some ⟨.live, some 0, .running (49 + 1)⟩ ∧
      (lit.sectionRec 0).persistence = .running (3999 + 1)) ∧
    (tripped.pending = [] ∧ Up tripped ∧ tripped.dueExpiry = none ∧ (tripped.line 0).pulse = .running (999 + 1) ∧
      (tripped.order 0).map (fun o => (o.failure, o.resend)) = some (.running (599 + 1), .running (19 + 1))) ∧
    (testing.pending = [] ∧ Up testing ∧ testing.dueExpiry = none ∧ testing.lens.startWait = .running (199 + 1)) :=
  ⟨by decide +kernel, by decide +kernel, by decide +kernel, by decide +kernel⟩

/-- For each kind of timer, a state in which its expiry is due. -/
theorem witness_idleStepRunsTime_due :
    let due (s : State) (c : Instr) : Prop := s.pending = [] ∧ Up s ∧ s.dueExpiry = some c
    let sent := run heard .sendingComplete
    (due (sent.setLoop { sent.loop with claimTimer := .running 0 }) .claimTimerExpiry ∧
      due (closed.setLoop { closed.loop with supervisionTimer := .running 0 }) .supervisionTimerExpiry ∧
      due (opening.setLoop { opening.loop with beaconTimer := .running 0 }) .beaconTimerExpiry) ∧
    (due (heard.setNode 2 ⟨.live, some 0, .running 0⟩) (.staleTimerExpiry 2) ∧
      due (lit.setSection 0 ⟨.light, false, false, .running 0, false, false⟩) (.persistenceTimerExpiry 0) ∧
      due (tripped.setLine 0 ⟨true, .running 0⟩) (.minimumPulseTimerExpiry 0)) ∧
    (due (tripped.setOrders [⟨0, .issued, 1, 0, 0, 0, .running 0, .running 20, false⟩]) (.failureTimerExpiry 0) ∧
      due (tripped.setOrders [⟨0, .issued, 1, 0, 0, 0, .running 600, .running 0, false⟩]) (.resendTimerExpiry 0) ∧
      due { testing with lens := { testing.lens with startWait := .running 0 } } .startWaitTimerExpiry) :=
  ⟨by decide +kernel, by decide +kernel, by decide +kernel⟩

theorem witness_badFramesHaveNoEffect :
    (List.replicate 6 (0 : Byte)).length < 7 ∧ 200 < (([0, 0, 0, 0, 201, 0, 0] : List Byte).getD 4 0).toNat ∧
    ([0, 0, 0, 0, 1, 0, 0] : List Byte).length ≠ 7 + (([0, 0, 0, 0, 1, 0, 0] : List Byte).getD 4 0).toNat ∧
    (List.replicate 200 (0 : Byte)).length ≤ 200 ∧
    ([0, 0] : List Byte) ≠ wordBytes (crc16 (⟨0, 0, 0x30, 0, []⟩ : Frame).body) := by decide +kernel

theorem witness_framesRoundTrip :
    (⟨0, 11, 0x10, 1, List.replicate 200 7⟩ : Frame).payload.length ≤ 200 ∧
    frameOf (⟨0, 11, 0x10, 1, [1, 2]⟩ : Frame).bytes = some ⟨0, 11, 0x10, 1, [1, 2]⟩ ∧
    (⟨0, 13, 0, 2, 65535⟩ : TripFrame).depth ≤ 2 ∧ (⟨0, 13, 0, 2, 65535⟩ : TripFrame).age ≤ 65535 := by decide +kernel

theorem witness_goodFramesAreSorted :
    let claim : Frame := ⟨0, 0, 0x32, 1, [0]⟩
    let other : Frame := ⟨0, 0, 0x10, 1, []⟩
    let light : Frame := ⟨0, 11, 0x10, 1, []⟩
    let elsewhere : Frame := ⟨9, 11, 0x10, 1, []⟩
    let request : Frame := ⟨0, 9, 0x40, 1, [7, 0x22, 0, 1]⟩
    (claim.payload.length ≤ 200 ∧ claim.source = 0 ∧ claim.kind = 0x32) ∧
    (other.source = 0 ∧ other.kind ∉ [0x30, 0x31, 0x32]) ∧ (elsewhere.source ≠ 0 ∧ elsewhere.dest ≠ 0) ∧
    (light.source ≠ 0 ∧ light.dest = 0 ∧ light.kind = 0x10) ∧
    (request.payload.length ≤ 200 ∧ request.source ≠ 0 ∧ request.dest = 0 ∧ request.kind = 0x40 ∧
      request.payload = 7 :: 0x22 :: [0, 1]) ∧
    ([7] : List Byte).length < 2 ∧ (0x13 : Byte) ∉ requestCodes := by decide +kernel

theorem witness_returningFramesByLoopState :
    Up closed ∧ closed.loop.state = .loopClosed ∧ Up opening ∧ opening.loop.state = .loopOpen ∧ opening.loop.state ≠ .loopClosed ∧
    closed.loop.state ≠ .loopOpen ∧ Takes closed 9 := by decide +kernel

theorem witness_claimingEntry :
    let three := withQueues heard [] (List.replicate 3 (.test someTest)) []
    let four := withQueues heard [] (List.replicate 4 (.test someTest)) []
    let none' := withQueues (idle heard) [] [] []
    (Busy three ∧ (three.loop.controlQ.filter ControlFrame.isTest).length < 4) ∧
    4 ≤ (four.loop.controlQ.filter ControlFrame.isTest).length ∧
    (none'.loop.sending = none ∧ none'.loop.tripQ = [] ∧ none'.loop.controlQ.filter ControlFrame.isTest = []) := by
  decide +kernel

theorem witness_claimReturn :
    (Up site ∧ site.loop.state = .claiming ∧ site.loop.outstanding = some 0 ∧ (48 : Byte).toNat ≤ 48 ∧
      (List.replicate 48 (11 : Byte)).length = (48 : Byte).toNat) ∧
    (closed.loop.state ≠ .claiming ∧ site.loop.outstanding ≠ some 1) ∧
    (48 < (49 : Byte).toNat ∧ ([11] : List Byte).length ≠ (2 : Byte).toNat) ∧
    State.reset.agent.mode = .unconfigured ∧ site.agent.mode = .protecting ∧ site.agent.active.validate = none := by
  decide +kernel

theorem witness_claimReturn_length : ∀ n addresses, ([49] : List Byte) = n :: addresses →
    48 < n.toNat ∨ addresses.length ≠ n.toNat := by
  rintro n addresses ⟨⟩; decide

theorem witness_periodicFrames :
    let open' := opening.setLoop { opening.loop with sending := some ⟨.control .beacon, 3⟩ }
    let three := withQueues closed [] (List.replicate 3 .supervision) []
    let four := withQueues closed [] (List.replicate 4 .supervision) []
    let busy := three.setLoop { three.loop with sending := some ⟨.control .supervision, 3⟩ }
    (Up busy ∧ busy.loop.sendTimer.isRunning = true ∧ Busy busy ∧ busy.loop.controlQ.length < 4) ∧
    (Up four ∧ four.loop.sendTimer.isRunning = true ∧ 4 ≤ four.loop.controlQ.length) ∧
    (Up closed ∧ closed.loop.sending = none ∧ closed.loop.tripQ = [] ∧ closed.loop.controlQ = []) ∧
    (Up open' ∧ open'.loop.beaconTimer.isRunning = true ∧ Busy open' ∧ open'.loop.controlQ.length < 4) ∧
    (let i := idle opening
     Up i ∧ i.loop.beaconTimer.isRunning = true ∧ i.loop.sending = none ∧ i.loop.controlQ = []) := by decide +kernel

theorem witness_openEntry :
    let sent := run heard .sendingComplete
    (Up sent ∧ sent.loop.claimWaiting = false ∧ .claim ∉ sent.loop.controlQ ∧ sent.loop.claimTimer.isRunning = true ∧
      sent.trip.orders = []) ∧
    (Up closed ∧ closed.loop.claimWaiting = false ∧ .claim ∉ closed.loop.controlQ ∧
      closed.loop.supervisionTimer.isRunning = true ∧ closed.trip.orders = []) ∧
    (site.tables.nodeUsed 3 = true ∧ heard.nodeLive 3 = false) ∧
    (let ordered := sent.setOrders [⟨2, .issued, 1, 0, 0, 0, .running 600, .running 20, false⟩]
     Up ordered ∧ ordered.loop.claimTimer.isRunning = true ∧ (ordered.order 2).map Order.state = some .issued ∧
      ordered.lineOf 2 = none ∧ 2 ∈ (run ordered .claimTimerExpiry).loop.cutSet ∧ ordered.isCut 2 = false) ∧
    (let busy (frames : List ControlFrame) := (withQueues closed [] frames []).setLoop
       { (withQueues closed [] frames []).loop with sending := some ⟨.control .supervision, 3⟩ }
     let full := busy (List.replicate 4 (.test someTest))
     (Up (busy [.supervision]) ∧ Busy (busy [.supervision]) ∧ (busy [.supervision]).loop.supervisionTimer.isRunning = true ∧
       ((busy [.supervision]).loop.controlQ.filter fun f => f ≠ .supervision).length < 4) ∧
     (Up full ∧ Busy full ∧ full.loop.supervisionTimer.isRunning = true ∧
       4 ≤ (full.loop.controlQ.filter fun f => f ≠ .supervision).length)) ∧
    (closed.loop.sending = none ∧ closed.loop.tripQ = [] ∧ closed.loop.controlQ = []) := by decide +kernel

/-- The loop CLOSED with a frame being sent, a SUPERVISION frame among others in the CONTROL queue, and held TEST frames. -/
def heldTests (others : Nat) (held : List TestFrame) : State :=
  let s := withQueues closed [] (.supervision :: List.replicate others (.test someTest)) []
  { s with
    loop := { s.loop with sending := some ⟨.control .supervision, 3⟩ }
    lens := { s.lens with held := held } }

/-- R16, R22, R24, R136: held TEST frames take the room that the withdrawn SUPERVISION frame leaves, ahead of the BEACON frame, which is
skipped when they fill the queue. -/
theorem test_openEntry_held :
    let off : TestFrame := ⟨11, 0, false⟩
    let on : TestFrame := ⟨16, 0, true⟩
    let t := run (heldTests 3 [off, on]) .supervisionTimerExpiry
    let u := run (heldTests 1 [off, on]) .supervisionTimerExpiry
    (t.loop.controlQ = List.replicate 3 (.test someTest) ++ [.test off] ∧ t.lens.held = [on]) ∧
    (u.loop.controlQ = [.test someTest, .test off, .test on, .beacon] ∧ u.lens.held = []) := by decide +kernel

/-- The hypotheses of openEntry with held TEST frames, and with one at an idle output. -/
theorem witness_openEntry_held :
    (let s := heldTests 3 [someTest]
     Up s ∧ Busy s ∧ s.loop.claimWaiting = false ∧ .claim ∉ s.loop.controlQ ∧ s.loop.supervisionTimer.isRunning = true) ∧
    (let s : State := { closed with lens := { closed.lens with held := [someTest] } }
     Up s ∧ s.loop.claimWaiting = false ∧ s.loop.supervisionTimer.isRunning = true ∧ s.loop.sending = none ∧
      s.loop.tripQ = [] ∧ s.loop.controlQ = [] ∧ s.trip.orders = []) := by decide +kernel

/-- R11, R16, R21, R122: the opening queues one BEACON frame, and the order on the breaker it cuts off fails. -/
theorem test_openEntry :
    let sent := run heard .sendingComplete
    let t := run (sent.setOrders [⟨2, .issued, 1, 0, 0, 0, .running 600, .running 20, false⟩]) .claimTimerExpiry
    opening.loop.sending.map Sending.frame = some (.control .beacon) ∧
    t.trip.orders.map (fun o => (o.state, o.failure)) = [(.failed, .stopped)] ∧
    t.pool.tripChain.map (fun x => (x.record.body.kind, x.record.body.value)) =
      [(.orderFailed, some (2 * 2 ^ 8)), (.escalationExhausted, some 2)] := by decide +kernel

theorem witness_outputArbitration :
    let trip : TripFrame := ⟨0, 13, 0, 0, 0⟩
    let s (tripQ : List TripFrame) (controlQ : List ControlFrame) (routineQ : List Response) : State :=
      (withQueues heard tripQ controlQ routineQ).setLoop
        { (withQueues heard tripQ controlQ routineQ).loop with sending := some ⟨.response someResponse, 3⟩ }
    let ready (t : State) : Prop := Up t ∧ t.loop.sending.isSome = true ∧ t.sendingSoftReset = false ∧
      t.loop.claimWaiting = false ∧ t.lens.held = [] ∧ t.agent.held = []
    let claim (tripQ : List TripFrame) (controlQ : List ControlFrame) (routineQ : List Response) : State :=
      withQueues site tripQ controlQ routineQ
    (ready (s [trip] [.claim] [someResponse]) ∧ (s [trip] [.claim] [someResponse]).loop.tripQ = trip :: []) ∧
    (ready (s [] [.claim] [someResponse]) ∧ (s [] [.claim] [someResponse]).loop.controlQ = .claim :: []) ∧
    (ready (s [] [] [someResponse]) ∧ (s [] [] [someResponse]).loop.routineQ = someResponse :: []) ∧
    ready (s [] [] []) ∧
    (ready (claim [trip] [.beacon] []) ∧ (claim [trip] [.beacon] []).loop.sending = some ⟨.control .claim, 0⟩ ∧
      (claim [trip] [.beacon] []).loop.outstanding = some 0) ∧
    ready (claim [] [.beacon] [someResponse]) ∧ ready (claim [] [] [someResponse]) ∧ ready (claim [] [] []) := by
  decide +kernel

/-- A frame being sent with full queues behind it, a CLAIM frame waiting or not, a TEST frame and a response held. -/
def fullQueues (claimWaiting : Bool) : State :=
  let s := withQueues heard [] (List.replicate 4 (.test someTest)) (List.replicate 4 someResponse)
  { s with
    loop := { s.loop with claimWaiting := claimWaiting }
    lens := { s.lens with held := [{ someTest with on := false }] }
    agent := { s.agent with held := [someResponse] } }

/-- R7, R22, R24, R136, R168: the room that a started CONTROL frame leaves goes to the waiting CLAIM, or else to the held TEST; a started
response leaves room for the held one. -/
theorem test_sendingComplete_offers :
    let claim := run (fullQueues true) .sendingComplete
    let test' := run (fullQueues false) .sendingComplete
    let response := run ((fullQueues false).setLoop { (fullQueues false).loop with controlQ := [] }) .sendingComplete
    (claim.loop.controlQ = List.replicate 3 (.test someTest) ++ [.claim] ∧ claim.loop.claimWaiting = false ∧
      claim.lens.held.length = 1 ∧ claim.agent.held.length = 1) ∧
    (test'.loop.controlQ = List.replicate 3 (.test someTest) ++ [.test { someTest with on := false }] ∧
      test'.lens.held = [] ∧ test'.loop.routineQ.length = 4) ∧
    (response.loop.routineQ = List.replicate 4 someResponse ∧ response.agent.held = [] ∧
      response.loop.sending.map Sending.frame = some (.response someResponse)) := by decide +kernel

theorem witness_outputArbitration_waiting :
    let ready (t : State) : Prop := Up t ∧ t.loop.sending.isSome = true ∧ t.sendingSoftReset = false
    let empty (claimWaiting : Bool) : State := withQueues (fullQueues claimWaiting) [] [] []
    (ready (fullQueues true) ∧ (fullQueues true).loop.controlQ = .test someTest :: List.replicate 3 (.test someTest)) ∧
    (ready (empty true) ∧ (empty true).loop.claimWaiting = true) ∧
    (ready (empty false) ∧ (empty false).loop.claimWaiting = false ∧
      (empty false).lens.held = { someTest with on := false } :: []) ∧
    (let quiet : State := { empty false with lens := { (empty false).lens with held := [] } }
     ready quiet ∧ quiet.loop.claimWaiting = false ∧ quiet.lens.held = [] ∧ quiet.agent.held = someResponse :: []) := by
  decide +kernel

theorem witness_waitingFramesTakeRoom :
    let waiting (n : Nat) : State := site.setLoop { site.loop with
      claimWaiting := true, controlQ := List.replicate n (.test someTest), routineQ := List.replicate n someResponse }
    let held : State := { waiting 3 with
      loop := { (waiting 3).loop with claimWaiting := false }
      lens := { site.lens with held := [someTest, someTest] }
      agent := { site.agent with held := [someResponse] } }
    (Up (waiting 3) ∧ Busy (waiting 3) ∧ (waiting 3).loop.claimWaiting = true ∧ (waiting 3).loop.controlQ.length < 4) ∧
    (Up (waiting 4) ∧ Busy (waiting 4) ∧ 4 ≤ (waiting 4).loop.controlQ.length ∧ 4 ≤ (waiting 4).loop.routineQ.length) ∧
    (Up held ∧ Busy held ∧ held.loop.claimWaiting = false ∧ held.loop.routineQ.length < 4) ∧
    (let i := idle site
     i.loop.sending = none ∧ i.loop.tripQ = [] ∧ i.loop.controlQ = [] ∧ i.loop.routineQ = []) := by decide +kernel

theorem witness_refusedNodeFramesHaveNoEffect :
    State.reset.agent.mode = .unconfigured ∧
    (∀ i, i < 48 → heard.tables.nodeUsed i = true → (heard.tables.node i).address = 13 →
      (heard.tables.node i).kind ≠ NodeKind.breaker.code ∨
        ([1, 5] : List Byte).head? ≠ some (heard.tables.node i).count ∨
        ([1, 5] : List Byte).length ≠ 1 + NodeKind.breaker.bytesFor (heard.tables.node i).count.toNat ∨
        (NodeKind.breaker = .breaker ∧ ∃ b ∈ ([1, 5] : List Byte).tail, b ∉ ([1, 2, 3, 4] : List Byte))) ∧
    heard.entryOfSource 11 = some 0 ∧ heard.node 0 = some ⟨.live, some 0, .running 50⟩ :=
  ⟨rfl, fun _ _ _ _ => .inr (.inr (.inr ⟨rfl, by decide⟩)), by decide +kernel⟩

/-- Entries of each kind that are the one in-use entry of their address, and contents of their count. -/
theorem witness_refusedNodeFramesHaveNoEffect_accepted :
    let the (n : Nat) (source : Byte) : Prop := n < 48 ∧ paired.tables.nodeUsed n = true ∧
      (paired.tables.node n).address = source ∧ (paired.tables.node n).count = 2 ∧
      ∀ j, j < 48 → paired.tables.nodeUsed j = true → (paired.tables.node j).address = source → j = n
    paired.agent.mode = .protecting ∧
    (the 0 11 ∧ (paired.tables.node 0).kind = 1 ∧ ([(0x0B, 0xB8), (0x82, 0xB2)] : List (Byte × Byte)).length = (2 : Byte).toNat) ∧
    (the 1 12 ∧ (paired.tables.node 1).kind = 2) ∧
    (the 2 13 ∧ (paired.tables.node 2).kind = 3 ∧ ∀ b ∈ ([1, 4] : List Byte), b ∈ ([1, 2, 3, 4] : List Byte)) :=
  ⟨rfl, by decide +kernel, by decide +kernel, by decide +kernel⟩

/-- R192: the rule's worked payload: 3000 without the test-active flag, and 690 with it. -/
theorem test_admission :
    paired.admission .light 11 [2, 0x0B, 0xB8, 0x82, 0xB2] = some (0, .light [(3000, false), (690, true)]) ∧
    paired.admission .current 12 [2, 0x12, 0x34, 0, 1, 0, 2, 0, 3, 0, 4, 0xFF, 0xFF] =
      some (1, .current [⟨0x1234, 1, 2⟩, ⟨3, 4, 65535⟩]) ∧
    paired.admission .breaker 13 [2, 1, 4] = some (2, .positions [.atOpen, .fault]) := by decide +kernel

theorem witness_acceptedFramesKeepNodeLive :
    let s := heard.setNode 3 ⟨.live, some 0, .running 5⟩
    (Up heard ∧ (14 : Byte) ≠ 0 ∧ heard.admission .breaker 14 [1, 2] = some (3, .positions [.atClosed]) ∧
      heard.node 3 = some ⟨.absent, none, .stopped⟩ ∧ heard.channelsOfNode 3 = [] ∧ heard.pointsOfNode 3 = [] ∧
      heard.breakersOfNode 3 = [] ∧ heard.loop.state ≠ .loopOpen) ∧
    (s.admission .breaker 14 [1, 2] = some (3, .positions [.atClosed]) ∧ s.node 3 = some ⟨.live, some 0, .running 5⟩ ∧
      s.channelsOfNode 3 = [] ∧ s.pointsOfNode 3 = [] ∧ s.breakersOfNode 3 = [] ∧ s.loop.state ≠ .loopOpen) ∧
    (1 ≤ ((1 : Byte) - 0).toNat ∧ ((128 : Byte) - 0).toNat ≤ 128 ∧ 129 ≤ ((129 : Byte) - 0).toNat ∧
      129 ≤ ((255 : Byte) - 0).toNat) ∧
    (Up site ∧ site.admission .light 11 [1, 0x0B, 0xB8] = some (0, .light [(3000, false)]) ∧
      site.node 0 = some ⟨.absent, none, .stopped⟩ ∧ 0 ∈ site.channelsOfNode 0 ∧ 1 ∉ site.channelsOfNode 0 ∧
      site.channelAt 0 0 = some 0 ∧ (site.channel 0).map ChannelRec.cond = some .noData) ∧
    (site.admission .current 12 [1, 0x40, 0, 0, 0, 0, 0] = some (1, .current [⟨16384, 0, 0⟩]) ∧
      site.node 1 = some ⟨.absent, none, .stopped⟩ ∧ 0 ∈ site.pointsOfNode 1 ∧ 0 ∉ site.pointsOfNode 0 ∧
      site.pointAt 1 0 = some 0 ∧ (site.point 0).map PointRec.cond = some .noData) := by decide +kernel

/-- An ABSENT node with two channels, and one with two points, each with its second sample. -/
theorem witness_acceptedFramesKeepNodeLive_two :
    let s := ({ paired with
      nodes := Vector.replicate _ (some ⟨.absent, none, .stopped⟩)
      channels := site.channels, points := Vector.replicate _ (some ⟨0, .noData⟩) } : State)
    (Up s ∧ s.admission .light 11 [2, 0x0B, 0xB8, 0x82, 0xB2] = some (0, .light [(3000, false), (690, true)]) ∧
      s.node 0 = some ⟨.absent, none, .stopped⟩ ∧ s.channelAt 0 1 = some 1 ∧ (s.channel 1).map ChannelRec.cond = some .noData) ∧
    (s.admission .current 12 [2, 0, 0, 0, 0, 0, 0, 0, 0, 0x40, 0, 0, 0] = some (1, .current [⟨0, 0, 0⟩, ⟨0, 16384, 0⟩]) ∧
      s.node 1 = some ⟨.absent, none, .stopped⟩ ∧ s.pointAt 1 1 = some 1 ∧ s.point 1 = some ⟨0, .noData⟩) :=
  ⟨by decide +kernel, by decide +kernel⟩

/-- R30, R61, R77: the first frames of two ABSENT nodes: 3000 × 320 / 256 = 3750, 2550 above T; 16384 × 1434 / 4096 = 5736, at or
above the pickup of 3072. -/
theorem test_first_frames :
    let t := runAll site [.lightSample 11 9 [1, 0x0B, 0xB8], .currentSample 12 200 [1, 0x40, 0, 0, 0, 0, 0]]
    (t.channel 0).map (fun r => (r.integ, r.cond)) = some (2550, .normal) ∧ t.point 0 = some ⟨20, .normal⟩ := by
  decide +kernel

theorem witness_staleNodeLosesItsData :
    Up heard ∧ heard.node 0 = some ⟨.live, some 0, .running 50⟩ ∧ 0 ∈ heard.channelsOfNode 0 ∧
    heard.channel 0 = some (channelRec 0 .dark true) ∧ heard.lens.state = .idle ∧ 1 ∉ heard.channelsOfNode 0 ∧
    heard.node 1 = some ⟨.live, some 0, .running 50⟩ ∧ 0 ∈ heard.pointsOfNode 1 ∧ (heard.point 0).isSome = true ∧
    heard.node 2 = some ⟨.live, some 0, .running 50⟩ ∧ 0 ∈ heard.breakersOfNode 2 ∧
    (heard.position 0).isSome = true ∧
    (Up measuring ∧ (measuring.node 0).map NodeRec.live = some .live ∧ measuring.lens.state ≠ .idle ∧
      measuring.lens.channel = some 0 ∧ 0 ∈ measuring.channelsOfNode 0 ∧ (measuring.channel 0).isSome = true ∧
      (measuring.tables.channel 0).node.toNat ≠ 5) := by decide +kernel

theorem witness_lightSampleAfterGap :
    Up heard ∧ (11 : Byte) ≠ 0 ∧ heard.admission .light 11 [1, 0x0F, 0xFF] = some (0, .light [(4095, false)]) ∧
    heard.node 0 = some ⟨.live, some (byte 0), .running 50⟩ ∧ (1 : Byte) ≠ 0 ∧
    ((128 : Byte) - byte 0).toNat ≤ 128 ∧ heard.channelAt 0 0 = some 0 ∧ heard.channel 0 = some (channelRec 0 .dark true) ∧
    (channelRec 0 .dark true).cond = .normal := by decide +kernel

/-- A frame of two samples, with a gap and with a resynchronisation; a NO_DATA channel; a number that no entry names. -/
theorem witness_lightSampleAfterGap_two :
    (Up paired ∧ paired.admission .light 11 [2, 0x0B, 0xB8, 0x82, 0xB2] = some (0, .light [(3000, false), (690, true)]) ∧
      paired.node 0 = some ⟨.live, some 0, .running 50⟩ ∧ paired.channelAt 0 1 = some 1 ∧ paired.channelAt 0 2 = none ∧
      paired.channel 1 = some (channelRec 0 .dark true) ∧ ¬((129 : Byte) - 0).toNat ≤ 128 ∧ (255 : Byte) ≠ 0) ∧
    (∀ k, k < 2 → paired.channelAt 0 k ≠ some 2) ∧
    (let s := paired.setChannel 1 { channelRec 0 .dark true with cond := .noData }
     s.node 0 = some ⟨.live, some 0, .running 50⟩ ∧ s.channelAt 0 1 = some 1 ∧ (s.channel 1).map ChannelRec.cond = some .noData) :=
  ⟨by decide +kernel, by decide +kernel, by decide +kernel⟩

theorem witness_sampleArithmetic : (channelRec 0 .dark true).comp = some 125 := rfl

theorem witness_flickerAndEligibility :
    (ChannelEntry.ofImage (channelImage 0)).window ≠ 0 ∧ ChannelEntry.empty.window = 0 ∧
    (channelRec 0 .dark true).window = none ∧ 398 + 1 < (ChannelEntry.ofImage (channelImage 0)).window.toNat ∧
    (ChannelEntry.ofImage (channelImage 0)).window.toNat ≤ 399 + 1 := by decide +kernel

/-- A sample that turns FLICKER on, its fourth crossing, and one that turns it off, at 400. -/
theorem witness_flickerAndEligibility_records :
    let r (elapsed : Nat) (flicker : Bool) : ChannelRec :=
      { channelRec 0 .dark true with window := some ⟨3, elapsed⟩, flicker := flicker }
    let e := heard.tables.channel 0
    (withChannel heard 0 (r 10 false)).channel 0 = some (r 10 false) ∧
    ((r 10 false).process e (.received 3000)).1.flicker = true ∧ ((r 399 true).process e (.received 100)).1.flicker = false := by
  decide +kernel

/-- R58: their records are NOTICEs with the channel and its section; a sample that changes nothing makes none. -/
theorem test_flicker_records :
    let s (elapsed : Nat) (flicker : Bool) : State :=
      withChannel heard 0 { channelRec 0 .dark true with window := some ⟨3, elapsed⟩, flicker := flicker }
    let made (t : State) := (t.pool.generalChain.drop heard.pool.generalChain.length).map fun x => x.record.body
    made ((s 10 false).processSample 0 (.received 3000)) =
      [{ kind := .flickerOn, category := .notice, channel := some 0, sect := some 0 }] ∧
    made ((s 399 true).processSample 0 (.received 100)) =
      [{ kind := .flickerOff, category := .notice, channel := some 0, sect := some 0 }] ∧
    made ((s 10 true).processSample 0 (.received 3000)) = [] := by decide +kernel

theorem witness_pathEvents :
    let r (elapsed : Nat) : ChannelRec := { channelRec 0 .dark true with window := some ⟨3, elapsed⟩ }
    let s (elapsed : Nat) : State := withChannel heard 0 (r elapsed)
    let e := heard.tables.channel 0
    let p := heard.tables.point 0
    (Up (s 399) ∧ (11 : Byte) ≠ 0 ∧ (s 399).admission .light 11 [1, 0x0B, 0xB8] = some (0, .light [(3000, false)]) ∧
      (s 399).node 0 = some ⟨.live, some 0, .running 50⟩ ∧ ((1 : Byte) - 0).toNat = 1 ∧ (s 399).channelAt 0 0 = some 0 ∧
      (s 399).channel 0 = some (r 399) ∧ (r 399).cond = .normal ∧ (r 399).window = some ⟨3, 399⟩ ∧ e.window ≠ 0 ∧
      e.window.toNat ≤ 399 + 1 ∧ 398 + 1 < e.window.toNat ∧ (r 399).pred = some true ∧
      e.threshold.toNat ≤ min 4095 (3000 * (r 399).gain / 256) ∧ e.limit.toNat ≤ min e.limit.toNat (3 + 1) ∧
      3 < e.limit.toNat) ∧
    (Up (withStretch 1) ∧
      (withStretch 1).admission .current 12 [1, 0, 0, 0, 0, 0, 0] = some (1, .current [⟨0, 0, 0⟩]) ∧
      (withStretch 1).admission .current 12 [1, 0x40, 0, 0, 0, 0, 0] = some (1, .current [⟨16384, 0, 0⟩]) ∧
      (withStretch 1).node 1 = some ⟨.live, some 0, .running 50⟩ ∧ (withStretch 1).pointAt 1 0 = some 0 ∧
      (withStretch 1).point 0 = some ⟨1, .normal⟩ ∧ ((2 : Byte) - 0).toNat = 2 ∧
      ¬p.pickup.toNat ≤ min 65535 (0 * p.scale.toNat / 4096) ∧
      p.pickup.toNat ≤ min 65535 (16384 * p.scale.toNat / 4096) ∧ p.stretch ≠ 0) ∧
    (run (withStretch 20) (.staleTimerExpiry 1)).points ≠ (withStretch 20).points ∧
    (Up lit ∧ (lit.sectionRec 0).persistence.isRunning = true ∧ (lit.sectionRec 0).persistentMade = false) := by
  decide +kernel

theorem witness_pathEvents_underTest :
    let u := windowUnderTest 399
    let e := u.tables.channel 0
    (Up u ∧ u.admission .light 11 [1, 0x84, 0xB1] = some (0, .light [(1201, true)]) ∧
      u.admission .light 11 [1, 0x84, 0xB0] = some (0, .light [(1200, true)]) ∧
      (u.node 0).map (fun r => (r.live, r.lastSeq)) = some (.live, some 0) ∧ u.channelAt 0 0 = some 0) ∧
    ((u.channel 0).map (fun r => (r.cond, r.window)) = some (.testing, some ⟨1, 399⟩) ∧ u.lens.channel = some 0 ∧
      u.lens.state ≠ .idle) ∧
    (min 4095 (3 * e.reference.toNat) = 1200 ∧ e.window ≠ 0 ∧ e.window.toNat ≤ 399 + 1 ∧ 398 + 1 < e.window.toNat ∧
      1 + 1 < e.limit.toNat) := by decide +kernel

theorem witness_currentSampleStretch :
    Up heard ∧ (12 : Byte) ≠ 0 ∧
    heard.admission .current 12 [1, 0x40, 0, 0, 0, 0, 0] = some (1, .current [⟨16384, 0, 0⟩]) ∧
    heard.node 1 = some ⟨.live, some 0, .running 50⟩ ∧ (1 : Byte) ≠ 0 ∧ ((128 : Byte) - 0).toNat ≤ 128 ∧
    heard.pointAt 1 0 = some 0 ∧ heard.point 0 = some ⟨0, .normal⟩ ∧
    (heard.tables.point 0).pickup.toNat ≤ min 65535 (16384 * (heard.tables.point 0).scale.toNat / 4096) ∧
    ¬(heard.tables.point 0).pickup.toNat ≤ min 65535 (0 * (heard.tables.point 0).scale.toNat / 4096) := by decide +kernel

/-- A frame of two points, and a number that no entry names. -/
theorem witness_currentSampleStretch_two :
    Up paired ∧ paired.admission .current 12 [2, 0, 0, 0, 0, 0, 0, 0, 0, 0x40, 0, 0, 0] =
      some (1, .current [⟨0, 0, 0⟩, ⟨0, 16384, 0⟩]) ∧ paired.node 1 = some ⟨.live, some 0, .running 50⟩ ∧
    paired.pointAt 1 1 = some 1 ∧ paired.pointAt 1 2 = none ∧ paired.point 1 = some ⟨0, .normal⟩ ∧
    ¬((129 : Byte) - 0).toNat ≤ 128 ∧ (∀ k, k < 2 → paired.pointAt 1 k ≠ some 2) := by decide +kernel

/-- A frame of two breakers; a number that no entry names; a line whose pulse is over, and one that another order holds. -/
theorem witness_positionChanges_two :
    let past := tripped.setLine 0 ⟨true, .stopped⟩
    let shared : State := { past with
      agent := { past.agent with active := siteTables.write .breaker 1 [1, 0xFF, 0, 0, 0, 60, 0, 0, 0, 0] }
      trip := { past.trip with orders := past.trip.orders ++ [⟨1, .issued, 1, 1, 0, 0, .running 600, .running 20, false⟩] } }
    (Up paired ∧ paired.admission .breaker 13 [2, 2, 3] = some (2, .positions [.atClosed, .moving]) ∧
      paired.node 2 = some ⟨.live, some 0, .running 50⟩ ∧ paired.breakerAt 2 1 = some 1 ∧ paired.breakerAt 2 2 = none ∧
      (paired.position 1).isSome = true ∧ ∀ k, k < 2 → paired.breakerAt 2 k ≠ some 2) ∧
    (Up past ∧ past.lineOf 0 = some 0 ∧ (past.line 0).pulse.isRunning = false ∧
      (∀ o ∈ past.trip.orders, o.breaker ≠ 0 → o.state = .opened ∨ past.lineOf o.breaker ≠ some 0) ∧
      (run past (.position 13 1 [1, 1])).line 0 = ⟨false, .stopped⟩) ∧
    (Up shared ∧ shared.lineOf 1 = some 0 ∧ (shared.order 0).map Order.state = some .issued ∧
      (run shared (.position 13 1 [1, 1])).line 0 = ⟨true, .stopped⟩) :=
  ⟨by decide +kernel, by decide +kernel, by decide +kernel⟩

theorem witness_positionChanges :
    let s := opened.setPosition 0 .atOpen
    let waiting := s.setOrders (s.trip.orders.map fun o => { o with waiting := true })
    (Up heard ∧ (13 : Byte) ≠ 0 ∧ heard.admission .breaker 13 [1, 1] = some (2, .positions [.atOpen]) ∧
      heard.node 2 = some ⟨.live, some 0, .running 50⟩ ∧ (1 : Byte) ≠ 0 ∧ ¬((129 : Byte) - 0).toNat ≤ 128 ∧
      heard.breakerAt 2 0 = some 0 ∧ heard.position 0 = some .atClosed ∧ heard.order 0 = none) ∧
    (Up tripped ∧ tripped.admission .breaker 13 [1, 1] = some (2, .positions [.atOpen]) ∧
      tripped.node 2 = some ⟨.live, some 0, .running 50⟩ ∧ tripped.breakerAt 2 0 = some 0 ∧
      tripped.position 0 = some .atClosed ∧ (tripped.order 0).map Order.state = some .issued) ∧
    (Up s ∧ s.admission .breaker 13 [1, 3] = some (2, .positions [.moving]) ∧
      (s.node 2).map (fun r => (r.live, r.lastSeq)) = some (.live, some 1) ∧ s.breakerAt 2 0 = some 0 ∧
      s.position 0 = some .atOpen ∧ (s.order 0).map (fun o => (o.state, o.waiting)) = some (.opened, false) ∧
      s.cutWithoutLine 0 = false) ∧
    ((s.tables.breaker 0).nodeOf = some 2 ∧ s.isCut 0 = false ∧ Busy s ∧ s.loop.tripQ.length < 16 ∧
      (idle s).loop.sending = none ∧ (idle s).loop.tripQ = []) ∧
    (waiting.order 0).map (fun o => (o.state, o.waiting)) = some (.opened, true) := by
  decide +kernel

/-- A breaker node that is ABSENT, and one that is STALE in the OPEN loop: no channel or point entry names either. -/
theorem witness_positionChanges_first :
    let stale := opening.setNode 2 ⟨.stale, none, .stopped⟩
    (Up site ∧ site.admission .breaker 13 [1, 1] = some (2, .positions [.atOpen]) ∧
      site.node 2 = some ⟨.absent, none, .stopped⟩ ∧ site.channelsOfNode 2 = [] ∧ site.pointsOfNode 2 = [] ∧
      site.breakerAt 2 0 = some 0 ∧ site.position 0 = some .unknown) ∧
    (Up stale ∧ stale.loop.state = .loopOpen ∧ stale.admission .breaker 13 [1, 2] = some (2, .positions [.atClosed]) ∧
      stale.node 2 = some ⟨.stale, none, .stopped⟩ ∧ stale.channelsOfNode 2 = [] ∧ stale.pointsOfNode 2 = []) := by
  decide +kernel

/-- R30, R38, R106, R107, R117: the first frame of a STALE node takes its breaker from UNKNOWN to CLOSED and reissues the OPENED order;
the NODE_LIVE record comes first. -/
theorem test_position_first :
    let stale := run opened (.staleTimerExpiry 2)
    let t := run stale (.position 13 77 [1, 2])
    t.position 0 = some .atClosed ∧ t.trip.orders.map Order.state = [.issued] ∧
    (t.pool.generalChain.drop stale.pool.generalChain.length).map
      (fun x => (x.record.body.kind, x.record.body.category, x.record.body.value)) =
        [(.nodeLive, .alarm, none), (.positionChange, .notice, some 2)] := by decide +kernel

theorem witness_positionChanges_cut :
    let s (depth : Nat) : State :=
      (cutOff [1, 1, 0, 0] [⟨2, .opened, 1, depth, 0, 0, .stopped, .stopped, false⟩]).setPosition 2 .atOpen
    (Up (s 0) ∧ (s 0).admission .breaker 15 [1, 3] = some (4, .positions [.moving]) ∧
      (s 0).node 4 = some ⟨.live, some 0, .running 50⟩ ∧ (s 0).breakerAt 4 0 = some 2 ∧ (s 0).position 2 = some .atOpen) ∧
    (((s 0).order 2).map (fun o => (o.state, o.depth)) = some (.opened, 0) ∧
      ((s 2).order 2).map (fun o => (o.state, o.depth)) = some (.opened, 2) ∧ (s 0).cutWithoutLine 2 = true ∧
      ((s 0).tables.breaker 2).backupList = [1]) := by decide +kernel

/-- R117, R120, R122: the order reissued on a cut breaker without a line fails at once, and escalates to breaker 1. -/
theorem test_position_reissues_cut :
    let s := (cutOff [1, 1, 0, 0] [⟨2, .opened, 1, 0, 0, 0, .stopped, .stopped, false⟩]).setPosition 2 .atOpen
    let t := run s (.position 15 1 [1, 3])
    t.trip.orders.map (fun o => (o.breaker, o.state, o.depth)) = [(2, .failed, 0), (1, .issued, 1)] ∧
    t.pool.tripChain.map (fun x => x.record.body.kind) = [.orderReissued, .orderFailed, .orderIssued] ∧
    t.line 1 = ⟨true, .running 1000⟩ := by decide +kernel

/-- R114, R117, R124: the reissued order's TRIP frame is queued, with its depth and its age; its line, still active, stays as it is, and
an inactive one starts its minimum pulse. -/
theorem test_position_reissues :
    let t := run (opened.setLine 0 ⟨true, .running 400⟩) (.position 13 2 [1, 3])
    t.line 0 = ⟨true, .running 400⟩ ∧
    (run (opened.setLine 0 ⟨false, .stopped⟩) (.position 13 2 [1, 3])).line 0 = ⟨true, .running 1000⟩ ∧
    t.loop.tripQ = [⟨0, 13, 0, 0, 0⟩] ∧
    t.trip.orders.map (fun o => (o.state, o.failure, o.waiting)) = [(.issued, .running 600, true)] := by decide +kernel

theorem witness_newOrders :
    let s := heard.setPosition 0 .atOpen
    let full := withQueues heard (List.replicate 16 ⟨2, 15, 0, 0, 0⟩) [] []
    (s.order 0 = none ∧ s.position 0 = some .atOpen) ∧
    (heard.order 0 = none ∧ heard.position 0 = some .atClosed ∧ heard.cutWithoutLine 0 = false ∧
      heard.lineOf 0 = some 0 ∧ (heard.line 0).active = false ∧ ((heard.setLine 0 ⟨true, .stopped⟩).line 0).active = true) ∧
    ((heard.tables.breaker 0).nodeOf = some 2 ∧ heard.isCut 0 = false ∧ heard.loop.tripQ.length < 16 ∧ Busy heard) ∧
    ((idle heard).order 0 = none ∧ (idle heard).position 0 = some .atClosed ∧ (idle heard).loop.sending = none ∧
      (idle heard).loop.tripQ = []) ∧
    (full.order 0 = none ∧ full.position 0 = some .atClosed ∧ 16 ≤ full.loop.tripQ.length) ∧
    (heard.order 1 = none ∧ heard.position 1 = some .atClosed ∧ (heard.tables.breaker 1).nodeOf = none) ∧
    (let cut := cutOff [1, 1, 0, 0] []
     opening.order 2 = none ∧ opening.position 2 = some .atClosed ∧ opening.cutWithoutLine 2 = true ∧
      (opening.tables.breaker 2).backupList = [] ∧ cut.order 2 = none ∧ cut.position 2 = some .atClosed ∧
      cut.cutWithoutLine 2 = true ∧ (cut.tables.breaker 2).backupList = [1] ∧ (cut.position 1).isSome = true) := by
  decide +kernel

/-- R112, R120: section 1 is merged into the FAILED order on breaker 0 in its place, and breaker 1 is asked for the merged causes at
the next depth. -/
theorem test_mergedOrders :
    let s := tripped.setOrders [⟨0, .failed, 1, 1, 0, 0, .stopped, .running 20, false⟩]
    (s.ask 0 2 0).trip.orders.map (fun o => (o.breaker, o.state, o.causes, o.depth)) =
      [(0, .failed, 3, 0), (1, .issued, 3, 1)] := by decide +kernel

theorem witness_mergedOrders :
    let s := tripped.setOrders [⟨0, .failed, 1, 1, 0, 0, .stopped, .running 20, false⟩]
    (tripped.order 0).map Order.state = some .issued ∧
    (s.order 0).map (fun o => (o.state, o.causes ||| 2, min o.depth 1, o.failure)) = some (.failed, 3, 1, .stopped) ∧
    (1 ∈ (s.tables.breaker 0).backupList ∧ (s.position 1).isSome = true) := by decide +kernel

/-- R23, R115: a resend at an idle output starts its frame at once, and leaves no waiting copy. -/
theorem test_resend_idle :
    let t := run (idle tripped) (.resendTimerExpiry 0)
    t.loop.sending.map Sending.frame = some (.trip ⟨0, 13, 0, 0, 0⟩) ∧ t.loop.tripQ = [] ∧
    t.trip.orders.map (fun o => (o.resend, o.waiting)) = [(.running 20, false)] := by decide +kernel

theorem witness_resendsAndPulses :
    (Up tripped ∧ Busy tripped ∧ (tripped.order 0).map (fun o => (o.resend.isRunning, o.unopened, o.waiting)) =
      some (true, true, false) ∧ tripped.isCut 0 = false ∧ tripped.loop.tripQ.length < 16 ∧
      (tripped.tables.breaker 0).nodeOf = some 2) ∧
    (let i := idle tripped
     Up i ∧ i.loop.sending = none ∧ i.loop.tripQ = [] ∧ i.isCut 0 = false ∧
      (i.order 0).map (fun o => (o.resend.isRunning, o.unopened, o.waiting)) = some (true, true, false)) ∧
    (Up failed ∧ Busy failed ∧ (failed.order 1).map (fun o => o.resend.isRunning) = some true ∧
      (failed.tables.breaker 1).nodeOf = none) ∧
    ((tripped.line 0).pulse.isRunning = true ∧ (tripped.line 0).active = true ∧
      ∃ o ∈ tripped.trip.orders, o.state ≠ .opened ∧ tripped.lineOf o.breaker = some 0) ∧
    (Up opened ∧ (opened.line 0).pulse.isRunning = true ∧ (opened.line 0).active = true ∧
      ∀ o ∈ opened.trip.orders, o.state = .opened ∨ opened.lineOf o.breaker ≠ some 0) := by decide +kernel

theorem witness_failuresEscalate :
    let s (b depth : Nat) : State := tripped.setOrders [⟨b, .issued, 1, depth, 0, 0, .running 0, .running 20, false⟩]
    (Up (s 0 2) ∧ ((s 0 2).order 0).map (fun o => (o.state, o.failure.isRunning, o.depth)) = some (.issued, true, 2)) ∧
    (((s 1 1).order 1).map (fun o => (o.state, o.failure.isRunning, o.depth)) = some (.issued, true, 1) ∧
      ((s 1 1).tables.breaker 1).backupList = []) ∧
    (((s 0 1).order 0).map (fun o => (o.state, o.failure.isRunning, o.depth)) = some (.issued, true, 1) ∧
      ((s 0 1).tables.breaker 0).backupList ≠ []) ∧
    (let cut (b : Nat) (depth : Nat) := cutOff [1, 1, 0, 0] [⟨b, .issued, 1, depth, 0, 0, .running 600, .running 20, false⟩]
     ((cut 2 1).order 2).map (fun o => (o.state, o.depth)) = some (.issued, 1) ∧ ((cut 2 2).order 2).map Order.depth = some 2 ∧
      (cut 2 1).isCut 2 = true ∧ (cut 2 1).lineOf 2 = none ∧ ((cut 2 1).tables.breaker 2).backupList = [1] ∧
      (cut 0 1).isCut 0 = false ∧ (cut 0 1).lineOf 0 ≠ none) := by decide +kernel

/-- R89, R110: with a boundary list of breakers 2 and 0 a trip asks for orders of depth 0 in that order. -/
theorem test_trip_boundary :
    let s : State := { lit with agent := { lit.agent with
      active := siteTables.write .sect 0 [1, 2, 1, 2, 2, 0, 0, 0, 0, 0, 0, 0, 1, 0, 0, 0, 0, 0, 0] } }
    (s.evaluate 0 .other).trip.orders.map (fun o => (o.breaker, o.causes, o.depth)) = [(2, 1, 0), (0, 1, 0)] := by
  decide +kernel

theorem witness_tripDecision :
    let mode (m f : Byte) : State := { heard with agent := { heard.agent with
      active := siteTables.write .sect 0 [1, m, f, 1, 0, 0, 0, 0, 0, 0, 0, 0, 1, 0, 0, 0, 0, 0, 0] } }
    let noData (f : Byte) : State := (mode 1 f).setPointView 0 ⟨false, .noData⟩
    ((mode 2 1).sectionEntry 0).mode = 2 ∧
    ((heard.sectionEntry 0).mode = 1 ∧ (heard.sectionRec 0).maintenance = false ∧
      ∃ p ∈ (heard.sectionEntry 0).confirmList, heard.pointHasData p = true) ∧
    ((heard.setSection 0 ⟨.armed, true, false, .stopped, false, false⟩).sectionRec 0).maintenance = true ∧
    ((∀ p ∈ ((noData 2).sectionEntry 0).confirmList, (noData 2).pointHasData p = false) ∧
      ((noData 2).sectionEntry 0).fallback = 2) ∧
    ((∀ p ∈ ((noData 1).sectionEntry 0).confirmList, (noData 1).pointHasData p = false) ∧
      ((noData 1).sectionEntry 0).fallback = 1) ∧
    (lit.setPointView 0 ⟨true, .normal⟩).tripCondition 0 = true ∧
    (lit.tripCondition 0 = false ∧ lit.someLit 0 = true ∧ (lit.sectionRec 0).state = .light) ∧
    (let dark := lit.setPointView 0 ⟨false, .noData⟩
     dark.tripCondition 0 = false ∧ dark.someLit 0 = true ∧ dark.rule 0 = .unconfirmable ∧
      (dark.sectionRec 0).unconfirmableMade = false) ∧
    (heard.tripCondition 0 = false ∧ heard.someLit 0 = false) ∧
    (heard.tables.channel 0).sectOf = some 0 ∧
    (heard.tables.sectionUsed 0 = true ∧ (heard.tables.sectionAt 0).confirmList.contains 0 = true) ∧
    (((mode 3 1).sectionEntry 0).mode = 3 ∧ (mode 3 1).sectionInactive 0 = true ∧ heard.sectionInactive 0 = false) := by
  decide +kernel

theorem witness_tripDemandsEveryBoundaryBreaker :
    let c : Instr := .currentSample 12 1 [1, 0x40, 0, 0, 0, 0, 0]
    exec c lit = .next (run lit c) ∧ (lit.sectionRec 0).state ≠ .tripped ∧ ((run lit c).sectionRec 0).state = .tripped ∧
    0 ∈ ((run lit c).tables.sectionAt 0).boundaryList ∧ ((run lit c).position 0).isSome = true :=
  ⟨rfl, by decide +kernel⟩

theorem witness_lockoutHolds :
    exec .softResetTakesEffect tripped = .next (run tripped .softResetTakesEffect) ∧
    exec (.release 9 1 [1]) tripped = .next (run tripped (.release 9 1 [1])) ∧ QuietWhileUndisturbed tripped ∧
    (tripped.sectionRec 0).state = .tripped ∧ (∀ mv, Instr.release 9 1 [1] ≠ .hardResetEnd mv) ∧
    (∀ bytes, Instr.release 9 1 [1] ≠ .frameArrival bytes) ∧
    (∀ source tag code params, Instr.release 9 1 [1] = .unknownRequestCode source tag code params → code ∉ requestCodes) ∧
    ∀ source tag sect, Instr.release 9 1 [1] = .release source tag [sect] → sect.toNat ≠ 0 := by
  refine ⟨rfl, rfl, by decide +kernel, by decide +kernel, nofun, nofun, nofun, ?_⟩
  rintro _ _ _ ⟨⟩; decide

theorem witness_blockRequests :
    let blocked := heard.setSection 15 ⟨.blocked, false, true, .stopped, false, false⟩
    let flagged := tripped.setSection 0 ⟨.tripped, false, true, .stopped, false, false⟩
    (Takes State.reset 9 ∧ State.reset.agent.mode = .unconfigured) ∧
    (Takes heard 9 ∧ heard.agent.mode = .protecting ∧ 16 ≤ (16 : Byte).toNat ∧ (15 : Byte).toNat < 16 ∧
      (heard.sectionRec 0).block = false ∧ (heard.sectionRec 0).state ≠ .blocked) ∧
    (Takes blocked 9 ∧ (blocked.sectionRec 15).state = .blocked ∧ (blocked.sectionRec 15).block = true) ∧
    (Takes flagged 9 ∧ (flagged.sectionRec 0).state ≠ .blocked ∧ (flagged.sectionRec 0).block = true) := by
  decide +kernel

theorem witness_maintenanceChange :
    Takes State.reset 9 ∧ State.reset.agent.mode = .unconfigured ∧ (1 : Byte) ∈ ([0, 1] : List Byte) ∧
    16 ≤ (16 : Byte).toNat ∧
    Takes heard 9 ∧ heard.agent.mode = .protecting ∧ (15 : Byte).toNat < 16 ∧ (1 : Byte) = flagByte true ∧
    (0 : Byte) = flagByte false ∧ (heard.sectionRec 0).maintenance = false ∧ (heard.sectionRec 0).maintenance ≠ true ∧
    (heard.sectionRec 0).state = .armed ∧ Takes tripped 9 ∧ (tripped.sectionRec 0).maintenance ≠ true ∧
    (tripped.sectionRec 0).state ≠ .armed ∧ (tripped.sectionRec 0).state ≠ .light := by decide +kernel

theorem witness_releaseOfASection :
    let dark := withChannel tripped 0 (channelRec 0 .dark true)
    (Takes State.reset 9 ∧ State.reset.agent.mode = .unconfigured ∧ 16 ≤ (16 : Byte).toNat) ∧
    (Takes tripped 9 ∧ tripped.agent.mode = .protecting ∧ (15 : Byte).toNat < 16 ∧ tripped.someLit 0 = true) ∧
    (Takes heard 9 ∧ (heard.sectionRec 15).state ≠ .tripped) ∧
    (Takes dark 9 ∧ dark.agent.mode = .protecting ∧ (dark.sectionRec 0).state = .tripped ∧
      dark.someLit 0 = false ∧ OneOrderPerBreaker dark ∧ ∀ o ∈ dark.trip.orders, o.causes ≠ 0) := by decide +kernel

theorem witness_lensTestAcceptance :
    let sole := withChannel heard 1 (ChannelRec.fresh (heard.tables.channel 1) .noData)
    (Takes State.reset 9 ∧ State.reset.agent.mode = .unconfigured) ∧
    (Takes heard 9 ∧ heard.agent.mode = .protecting ∧ heard.tables.channelUsed 2 = false ∧ 96 ≤ (96 : Byte).toNat) ∧
    (Takes testing 9 ∧ testing.tables.channelUsed 1 = true ∧ testing.lens.state ≠ .idle) ∧
    (Takes site 9 ∧ site.lens.state = .idle ∧ (site.channel 0).map ChannelRec.cond = some .noData) ∧
    (Takes lit 9 ∧ lit.lens.state = .idle ∧ (lit.tables.channel 0).sectOf = some 0 ∧ (lit.sectionRec 0).state = .light) ∧
    (Takes sole 9 ∧ (sole.channel 0).map ChannelRec.cond = some .normal ∧ (sole.sectionRec 0).state = .armed ∧
      sole.contributes 0 0 = true ∧ ∀ c, c < 96 → c ≠ 0 → sole.contributes 0 c = false) ∧
    (heard.lens.state = .idle ∧ (heard.channel 0).map ChannelRec.cond = some .normal ∧
      (heard.tables.channel 0).sectOf = some 0 ∧ (heard.sectionRec 0).state = .armed ∧ heard.contributes 0 1 = true) ∧
    validating.agent.state = .validating := by decide +kernel

theorem witness_lensTestAcceptance_queues :
    (Takes heard 9 ∧ Busy heard ∧ heard.lens.held = [] ∧ heard.loop.controlQ.length < 4 ∧ heard.loop.routineQ.length < 4) ∧
    (let full := withQueues heard [] (List.replicate 4 (.test someTest)) (List.replicate 4 someResponse)
     Takes full 9 ∧ Busy full ∧ 4 ≤ full.loop.controlQ.length ∧ 4 ≤ full.loop.routineQ.length ∧
      full.lens.state = .idle ∧ (full.channel 0).map ChannelRec.cond = some .normal ∧ full.contributes 0 1 = true) := by
  decide +kernel

theorem witness_lensTestEndings :
    let under (s : State) : Prop := Up s ∧ s.lens.channel = some 0 ∧ (s.channel 0).map ChannelRec.cond = some .testing ∧
      s.nodeLive (s.tables.channel 0).node.toNat = true ∧ Busy s
    let held : State := { lastSample with lens := { lastSample.lens with held := [someTest] } }
    let earlier : State := { lastSample with lens := { lastSample.lens with held := [{ someTest with on := false }] } }
    let full := withQueues lastSample [] (List.replicate 4 (.test someTest)) []
    (under testing ∧ testing.lens.startWait.isRunning = true ∧ testing.lens.held = [] ∧
      testing.loop.controlQ.length < 4) ∧
    (under lastSample ∧ lastSample.lens.state = .measuring ∧
      lastSample.lens.count + 1 = (lastSample.tables.channel 0).testWindow.toNat) ∧
    (under held ∧ ∃ f ∈ held.lens.held, f.on = true) ∧
    (under earlier ∧ (∀ f ∈ earlier.lens.held, f.on = false) ∧ earlier.lens.held ≠ []) ∧
    (under full ∧ 4 ≤ full.loop.controlQ.length) ∧
    (under measuring ∧ measuring.lens.count + 1 ≠ (measuring.tables.channel 0).testWindow.toNat) ∧
    (249 < 2000 / 8 ∧ 2000 / 8 ≤ 250 ∧ 0 < 250) := by decide +kernel

/-- The hypotheses of lensTestSamples on a state whose channel 0 is under test. -/
abbrev UnderTest (s : State) (seq : Byte) : Prop :=
  Up s ∧ s.lens.channel = some 0 ∧ (s.channel 0).map ChannelRec.cond = some .testing ∧ s.channelAt 0 0 = some 0 ∧
    (s.node 0).map (fun r => (r.live, r.lastSeq)) = some (.live, some seq) ∧ s.lens.state ≠ .idle

theorem witness_lensTestSamples :
    (UnderTest testing 0 ∧ testing.lens.state = .starting ∧ (testing.tables.channel 0).testWindow.toNat ≠ 1 ∧
      testing.admission .light 11 [1, 0x85, 0xDC] = some (0, .light [(1500, true)]) ∧
      testing.admission .light 11 [1, 0x05, 0xDC] = some (0, .light [(1500, false)]) ∧
      1500 ≤ min 4095 (3 * (testing.tables.channel 0).reference.toNat)) ∧
    (UnderTest measuring 1 ∧ measuring.lens.state = .measuring ∧ ((129 : Byte) - 1).toNat = 128 ∧
      measuring.lens.count + 1 ≠ (measuring.tables.channel 0).testWindow.toNat) ∧
    (UnderTest lastSample 1 ∧ lastSample.lens.state = .measuring ∧
      lastSample.lens.count + 1 = (lastSample.tables.channel 0).testWindow.toNat) ∧
    (UnderTest lowCeiling 0 ∧ lowCeiling.admission .light 11 [1, 0x84, 0xB1] = some (0, .light [(1201, true)]) ∧
      min 4095 (3 * (lowCeiling.tables.channel 0).reference.toNat) < 1201) :=
  ⟨by decide +kernel, by decide +kernel, by decide +kernel, by decide +kernel⟩

/-- R192: the header and payload of the rule's worked light sample. -/
theorem test_frame_bytes : (⟨0, 14, 0x10, 37, [2, 0x0B, 0xB8, 0x82, 0xB2]⟩ : Frame).bytes.take 10 =
    [0x00, 0x0E, 0x10, 0x25, 0x05, 0x02, 0x0B, 0xB8, 0x82, 0xB2] := by decide +kernel

theorem witness_entryImagesRoundTrip :
    NodeEntry.empty.image.length = 6 ∧ (channelImage 0).length = 18 ∧ PointEntry.empty.image.length = 8 ∧
    BreakerEntry.empty.image.length = 10 ∧ SectionEntry.empty.image.length = 19 := by decide +kernel

theorem witness_tableWritesAndReads :
    let images : List (List Byte) := [NodeEntry.empty.image]
    Takes heard 9 ∧ images ≠ [] ∧ (∀ x ∈ images, x.length = TableId.node.imageLength) ∧
    (Takes validating 9 ∧ validating.agent.state = .validating) ∧ heard.agent.state = .idle ∧
    TableId.node.size < (48 : Byte).toNat + images.length ∧ (47 : Byte).toNat + images.length ≤ TableId.node.size ∧
    images[0]? = some NodeEntry.empty.image ∧ (46 : Byte).toNat < (47 : Byte).toNat ∧ TableId.node ≠ .channel ∧
    (1 : Byte) ≠ 0 ∧ TableId.sect.size < (15 : Byte).toNat + (2 : Byte).toNat ∧
    (15 : Byte).toNat + (1 : Byte).toNat ≤ TableId.sect.size := by decide +kernel

theorem witness_discardAndActivate :
    let writing : State := { heard with store := { heard.store with state := .writing } }
    (Takes validating 9 ∧ validating.agent.state = .validating) ∧
    (Takes writing 9 ∧ writing.agent.state = .idle ∧ writing.store.state = .writing) ∧
    (Takes tripped 9 ∧ tripped.agent.state = .idle ∧ tripped.store.state ≠ .writing ∧ tripped.trip.orders ≠ []) ∧
    (Takes heard 9 ∧ heard.agent.state = .idle ∧ heard.store.state ≠ .writing ∧ heard.trip.orders = [] ∧
      heard.lens.state = .idle ∧
      ∀ i, i < 16 → (heard.sectionRec i).state ≠ .light ∧ (heard.sectionRec i).state ≠ .tripped) := by decide +kernel

theorem witness_validationFindsFirstFailure :
    (siteTables.write .node 1 [1, 12, 2, 1, 1, 5]).validate = some ⟨.node, 1, 1⟩ ∧
    (siteTables.write .channel 1 (channelImage 2)).validate = some ⟨.channel, 1, 2⟩ ∧
    (siteTables.write .point 0 [1, 1, 1, 0x05, 0x9A, 0x0C, 0x00, 20]).validate = some ⟨.point, 0, 3⟩ ∧
    (siteTables.write .breaker 2 [1, 4, 0, 0xFF, 0, 19, 0, 0, 0, 0]).validate = some ⟨.breaker, 2, 4⟩ ∧
    (siteTables.write .sect 0 [1, 1, 0, 1, 0, 0, 0, 0, 0, 0, 0, 0, 1, 0, 0, 0, 0, 0, 0]).validate = some ⟨.sect, 0, 5⟩ ∧
    siteTables.validate = none := by decide +kernel

theorem witness_validationCompletion :
    let disturbed : State := { validating with agent := { validating.agent with disturbed := true } }
    let bad : State := { validating with agent := { validating.agent with
      shadow := siteTables.write .node 0 [1, 0, 1, 1, 1, 10] } }
    (Up disturbed ∧ disturbed.agent.state = .validating ∧ disturbed.agent.activation = some ⟨7, 9⟩ ∧
      disturbed.agent.disturbed = true) ∧
    (Up bad ∧ bad.agent.activation = some ⟨7, 9⟩ ∧ bad.agent.disturbed = false ∧
      bad.agent.shadow.validate = some ⟨.node, 0, 1⟩) ∧
    (Up validating ∧ validating.agent.state = .validating ∧ validating.agent.activation = some ⟨7, 9⟩ ∧
      validating.agent.disturbed = false ∧ validating.agent.shadow.validate = none ∧
      validating.loop.state ≠ .loopClosed ∧ (run closed (.activate 9 7 [])).loop.state = .loopClosed ∧
      (run opening (.activate 9 7 [])).loop.state = .loopOpen ∧
      (run opening (.activate 9 7 [])).agent.activation = some ⟨7, 9⟩) := by decide +kernel

theorem witness_refusedRequests :
    ({ heard.agent with held := [someResponse] } : Agent).held ≠ [] ∧
    ({ heard.agent with softResetPending := true } : Agent).softResetPending = true ∧ Takes heard 9 ∧
    (0x24 : Byte) ∉ requestCodes ∧ ([0] : List Byte).length ≠ 0 ∧ ([] : List Byte).length ≠ 1 ∧
    ([0, 1, 0] : List Byte).length ≠ 2 ∧ ([1, 0, 0] : List Byte).length ≠ 4 ∧ ([1, 0] : List Byte).length < 3 ∧
    (2 : Byte) ∉ ([0, 1] : List Byte) ∧ 8 < (9 : Byte).toNat ∧ (6 : Byte) ∉ ([1, 2, 3, 4, 5] : List Byte) ∧
    ¬ TableId.node.imageLength ∣ (List.replicate 7 (0 : Byte)).length ∧
    (let f : Frame := ⟨0, 9, 0x40, 1, [7, 0x22, 0, 2]⟩
     Takes heard f.source ∧ f.dest = 0 ∧ f.kind = 0x40 ∧ f.payload = 7 :: 0x22 :: [0, 2] ∧ f.payload.length ≤ 200) := by
  decide +kernel

theorem witness_readingRequests :
    (Takes State.reset 9 ∧ State.reset.agent.mode = .unconfigured) ∧ (Takes tripped 9 ∧ tripped.agent.mode = .protecting) ∧
    (96 ≤ (96 : Byte).toNat ∧ tripped.tables.channelUsed (2 : Byte).toNat = false) ∧
    (tripped.tables.channelUsed (0 : Byte).toNat = true ∧
      tripped.channel (0 : Byte).toNat = some (channelRec 20265 .lit false)) ∧
    24 ≤ (24 : Byte).toNat ∧ (23 : Byte).toNat < 24 := by decide +kernel

theorem witness_eventReads : Takes failed 9 ∧ 1 ≤ (1 : Byte).toNat ∧ (8 : Byte).toNat ≤ 8 := by decide +kernel

theorem witness_recordsTaken :
    let full : EventPool := { EventPool.empty with free := [], generalChain := [⟨5, ⟨1, 0, { kind := .reset, category := .notice }⟩⟩] }
    EventPool.empty.free = 0 :: (List.range 64).tail ∧ full.free = [] ∧ full.generalChain = ⟨5, ⟨1, 0, { kind := .reset, category := .notice }⟩⟩ :: [] ∧
    ({ full with generalChain := [] } : EventPool).generalChain = [] ∧ (Category.alarm ≠ .trip) := by decide +kernel

theorem witness_storeAndWarnings :
    let writing : State := { heard with store := { heard.store with state := .writing } }
    let low : State := { heard with supply := { heard.supply with low := true } }
    (Up writing ∧ writing.store.state = .writing) ∧ (Up heard ∧ heard.supply.low = false) ∧
    (Up low ∧ low.supply.low = true) := by decide +kernel

theorem witness_hardResetBegins :
    Up tripped ∧ (run tripped .supplyDipReset).hardReset = some ⟨true, false⟩ ∧ 2700 ≤ 2700 ∧
    Instr.beacon ≠ .supplyDipReset ∧ Instr.beacon ≠ .supplyBelowRetention ∧ (∀ mv, Instr.beacon ≠ .hardResetEnd mv) := by
  refine ⟨by decide +kernel, by decide +kernel, le_refl _, nofun, nofun, nofun⟩

theorem witness_hardResetEnds :
    (run tripped .supplyDipReset).hardReset = some ⟨true, false⟩ ∧ 2700 < 2701 ∧ 3050 ≤ 3050 := by decide +kernel

theorem witness_softReset :
    let r : Response := ⟨9, 1, 0x31, .ok, []⟩
    let s : State := { tripped with
      agent := { tripped.agent with softResetPending := true }
      loop := { tripped.loop with sending := some ⟨.response r, 7⟩ } }
    (Up s ∧ s.agent.softResetPending = true ∧ s.loop.sending = some ⟨.response r, 7⟩ ∧ r.code = 0x31 ∧ r.result = .ok ∧
      (s.sectionRec 0).state = .tripped ∧ (s.sectionRec 1).state ≠ .tripped) ∧
    (Takes tripped 9 ∧ Up tripped ∧ tripped.agent.softResetPending = false) := by decide +kernel

/-- A state in which SYSOK is active. -/
theorem witness_sysokConditions : (closed.setNode 3 ⟨.live, some 0, .running 10⟩).sysok = true := by decide +kernel

/-! For the invariants: the site with its section TRIPPED, the next step a supply warning. The clauses that speak of every number
hold beyond the tables because no record is there. -/

/-- The tripped site with a command waiting. -/
def busySite : State := { tripped with pending := [.supplyWarningFall] }

/-- A step from the tripped site answers a next state. -/
theorem busySite_steps : ∃ t, step busySite = .next t := ⟨_, rfl⟩

/-- An option of a vector of options is `none` beyond the end. -/
theorem join_beyond {α : Type} {n i : Nat} (v : Vector (Option α) n) (h : n ≤ i) : (v[i]?).join = none := by
  simp [Vector.getElem?_eq_none h]

/-- A claim about every record of a table holds when it holds within the table. -/
theorem forall_within {α : Type} {n : Nat} (v : Vector (Option α) n) {P : Nat → α → Prop}
    (h : ∀ i, i < n → ∀ r ∈ (v[i]?).join, P i r) (i : Nat) (r : α) (e : (v[i]?).join = some r) : P i r := by
  by_cases hi : i < n
  · exact h i hi r e
  · rw [join_beyond v (by omega)] at e; cases e

/-- Two readings of a table agree everywhere when they agree within it and are both empty beyond. -/
theorem agree_within {β : Type} {n : Nat} {f g : Nat → β} (x : β) (h : ∀ i, i < n → f i = g i) (hf : ∀ i, n ≤ i → f i = x)
    (hg : ∀ i, n ≤ i → g i = x) (i : Nat) : f i = g i := by
  by_cases hi : i < n
  · exact h i hi
  · rw [hf i (by omega), hg i (by omega)]

theorem witness_stepKeepsPoolPartitioned : PoolPartitioned busySite ∧ ∃ t, step busySite = .next t :=
  ⟨by unfold PoolPartitioned; decide +kernel, busySite_steps⟩

theorem witness_stepKeepsQueuesBounded : QueuesBounded busySite ∧ ∃ t, step busySite = .next t :=
  ⟨by unfold QueuesBounded; decide +kernel, busySite_steps⟩

theorem witness_stepKeepsLightBounded :
    LightBounded busySite ∧ TablesValidated busySite ∧ ∃ t, step busySite = .next t := by
  refine ⟨forall_within busySite.channels (P := fun _ r => ChannelBounded r) fun i hi r hr => ?_,
    by unfold TablesValidated Validated; decide +kernel, busySite_steps⟩
  have h : r.integ ≤ 65535 ∧ (∀ c ∈ r.comp, c ≤ 4095) ∧ 256 ≤ r.gain ∧ r.gain ≤ 1023 := by
    revert r; revert i; decide +kernel
  exact h

theorem witness_stepKeepsRecordsAndView :
    RecordsMatchTables busySite ∧ ViewCurrent busySite ∧ ∃ t, step busySite = .next t := by
  refine ⟨⟨agree_within (n := 48) false (by decide +kernel) ?_ ?_, agree_within (n := 96) false (by decide +kernel) ?_ ?_,
    agree_within (n := 24) false (by decide +kernel) ?_ ?_, agree_within (n := 24) false (by decide +kernel) ?_ ?_⟩,
    ⟨agree_within (n := 96) none (by decide +kernel) ?_ ?_, agree_within (n := 24) none (by decide +kernel) ?_ ?_⟩,
    busySite_steps⟩ <;>
  · intro i hi
    simp [State.node, State.channel, State.point, State.position, State.channelView, State.pointView, Tables.nodeUsed,
      Tables.channelUsed, Tables.pointUsed, Tables.breakerUsed, Tables.node, Tables.channel, Tables.point, Tables.breaker,
      markerSet, NodeEntry.empty, ChannelEntry.empty, PointEntry.empty, BreakerEntry.empty,
      Vector.getElem?_eq_none hi]

theorem witness_stepKeepsDecisionsCurrent :
    DecisionsCurrent busySite ∧ EligibleIsLit busySite ∧ InactiveAsTabled busySite ∧ ∃ t, step busySite = .next t := by
  refine ⟨by unfold DecisionsCurrent; decide +kernel,
    ⟨forall_within busySite.channels (P := fun _ r => r.eligible = true → r.light = .lit) (by decide +kernel),
      forall_within busySite.sections.channelViews (P := fun _ v => v.eligible = true → v.light = .lit) (by decide +kernel)⟩,
    by unfold InactiveAsTabled; decide +kernel, busySite_steps⟩

theorem witness_stepKeepsOrders :
    OneOrderPerBreaker busySite ∧ CausesTripped busySite ∧ DepthsBounded busySite ∧ QuietWhileUndisturbed busySite ∧
    ∃ t, step busySite = .next t :=
  ⟨by decide +kernel, by unfold CausesTripped; decide +kernel, by unfold DepthsBounded; decide +kernel, by decide +kernel,
    busySite_steps⟩

theorem witness_stepKeepsTripLines :
    LinesFollowOrders busySite ∧ OneOrderPerBreaker busySite ∧ QuietWhileUndisturbed busySite ∧ ∃ t, step busySite = .next t :=
  ⟨by unfold LinesFollowOrders; decide +kernel, by decide +kernel, by decide +kernel, busySite_steps⟩

theorem witness_stepKeepsWaitingCopies :
    WaitingCopies busySite ∧ OneOrderPerBreaker busySite ∧ ∃ t, step busySite = .next t := by
  have q : busySite.loop.tripQ = [] := by decide +kernel
  have o : ∀ o ∈ busySite.trip.orders, o.waiting = false := by decide +kernel
  refine ⟨⟨by simp [q], fun b => by rw [q]; simp; intro x hx _; exact o x hx⟩, by decide +kernel, busySite_steps⟩

theorem witness_stepKeepsCutBreakers :
    CutSetCurrent busySite ∧ CutNotQueued busySite ∧ CutOrdersFailed busySite ∧ OneOrderPerBreaker busySite ∧
    QuietWhileUndisturbed busySite ∧ ∃ t, step busySite = .next t :=
  ⟨by unfold CutSetCurrent; decide +kernel, by unfold CutNotQueued; decide +kernel, by unfold CutOrdersFailed; decide +kernel,
    by decide +kernel, by decide +kernel, busySite_steps⟩

theorem witness_stepKeepsTimersInState :
    LoopTimersInState busySite ∧ PersistenceInLight busySite ∧ OrderTimersInState busySite ∧ NodeTimersInState busySite ∧
    OneOrderPerBreaker busySite ∧ ∃ t, step busySite = .next t := by
  refine ⟨by unfold LoopTimersInState; decide +kernel, fun i => ?_, by unfold OrderTimersInState; decide +kernel,
    forall_within busySite.nodes
      (P := fun _ r => (r.timer.isRunning = true ↔ r.live = .live) ∧ (r.lastSeq.isSome = true ↔ r.live = .live))
      (by decide +kernel), by decide +kernel, busySite_steps⟩
  by_cases hi : i < 16
  · revert i; decide +kernel
  · simp [State.sectionRec, Vector.getElem?_eq_none (Nat.not_lt.mp hi), SectionRec.resetInactive, Timer.isRunning]

theorem witness_stepKeepsTestAndExchange :
    OneTest busySite ∧ QuietWhileUndisturbed busySite ∧ ExchangeBounded busySite ∧ ∃ t, step busySite = .next t := by
  have n : busySite.lens.channel = none := by decide +kernel
  have f : ∀ c r, busySite.channel c = some r → r.cond ≠ .testing :=
    forall_within busySite.channels (P := fun _ r => r.cond ≠ .testing) (by decide +kernel)
  refine ⟨⟨by decide +kernel, by decide +kernel, fun c => ?_⟩, by decide +kernel, by unfold ExchangeBounded; decide +kernel,
    busySite_steps⟩
  rw [n]
  exact ⟨nofun, fun ⟨r, h, t⟩ => absurd t (f c r h)⟩

end Sys2Proof.Tests
end

section
/-! SUPPORT. What one step can change, said once: a step is made of small changes of a few kinds, each with what its operation has
checked, so that an invariant is proved kept by checking the kinds. -/

namespace Sys2Proof.Machine

open Sys2Proof.Safety
open Relation (ReflTransGen)

/-! ## Kinds of change below the Loop Port -/

/-- A change beside the Loop Port, the active trip list, the node records, the tables and the agent's exchange. -/
structure Aside (s t : State) : Prop where
  loop : t.loop = s.loop
  orders : t.trip.orders = s.trip.orders
  nodes : t.nodes = s.nodes
  active : t.agent.active = s.agent.active
  hardReset : t.hardReset = s.hardReset
  state : t.agent.state = s.agent.state
  disturbed : s.agent.disturbed = true → t.agent.disturbed = true
  quiet : QuietWhileUndisturbed s → QuietWhileUndisturbed t
  persistence : PersistenceInLight s → PersistenceInLight t

/-- The timers of an order run in its states alone (R111, R115, R116, R121). -/
def Order.TimersInState (o : Order) : Prop :=
  (o.failure.isRunning = true ↔ o.state = .issued) ∧ (o.resend.isRunning = true ↔ o.state = .issued ∨ o.state = .failed)

/-- A change of an order that leaves it on its breaker with its waiting copy as it is, and does not make it ISSUED. -/
structure Amends (o : Order) (f : Order → Order) : Prop where
  breaker : ∀ p, (f p).breaker = p.breaker
  waiting : ∀ p, (f p).waiting = p.waiting
  issued : (f o).state = .issued → o.state = .issued
  timers : o.TimersInState → (f o).TimersInState

/-- An order joins the tail of the active trip list, which disturbs a validation (R111, R159). -/
def State.appendOrder (s : State) (b : Nat) (p : Position) (c : SectionSet) (d : Nat) : State :=
  (s.setOrders (s.trip.orders ++ [s.newOrder b p c d])).disturb

/-- An OPENED order is ISSUED again, with both its timers running (R117). -/
def State.renewOrder (s : State) (b left : Nat) : State :=
  s.updateOrder b fun o => { o with state := .issued, failure := .running left, resend := .running Config.resendTime }

/-- The order on a breaker that is cut and has no trip line fails, before any escalation (R122). -/
def State.failAtOnce (s : State) (b : Nat) : State :=
  if s.cutWithoutLine b then
    match s.order b with
    | some o => s.markFailed o .cut
    | none => s
  else s

/-- An order that has become ISSUED is sent, drives its line, and fails at once if it must (R111, R117, R122). -/
def State.issueOrder (s : State) (b : Nat) : State := ((s.attemptSend b).driveLine b).failAtOnce b

/-- The smallest changes that trip demands, lens tests and a new cut set are made of. -/
inductive Part : State → State → Prop
  | aside {s t : State} (h : Aside s t) : Part s t
  | amend {s : State} {b : Nat} {o : Order} {f : Order → Order} (ho : s.order b = some o) (ha : Amends o f) :
      Part s (s.updateOrder b f)
  | append {s : State} {b : Nat} {p : Position} (c : SectionSet) (d : Nat) (ho : s.order b = none)
      (hp : s.position b = some p) : Part s (s.appendOrder b p c d)
  | renew {s : State} {b : Nat} {o : Order} (left : Nat) (ho : s.order b = some o) : Part s (s.renewOrder b left)
  | send (s : State) (b : Nat) : Part s (s.attemptSend b)
  | withdraw (s : State) (b : Nat) : Part s (s.withdrawTrip b)
  | remove (s : State) (b : Nat) : Part s ((s.setOrders (s.trip.orders.filter fun o => o.breaker ≠ b)).withdrawTrip b)
  | control {s : State} {f : ControlFrame} (room : s.controlRoom = true) (hf : f ≠ .claim) : Part s (s.pushControl f)
  | cut {s : State} (p : Nat) (set : List Nat) (h : s.loop.state = .loopOpen) :
      Part s (s.setLoop { s.loop with breakPos := some p, cutSet := set })

/-- What trip demands and lens tests are made of, an order that becomes ISSUED together with its failing at once (R122). -/
inductive Demand : State → State → Prop
  | aside {s t : State} (h : Aside s t) : Demand s t
  | amend {s : State} {b : Nat} {o : Order} {f : Order → Order} (ho : s.order b = some o) (ha : Amends o f) :
      Demand s (s.updateOrder b f)
  | append {s : State} {b : Nat} (c : SectionSet) (d : Nat) (ho : s.order b = none)
      (hp : s.position b = some .atOpen) : Demand s (s.appendOrder b .atOpen c d)
  | issue {s : State} {b : Nat} {p : Position} (c : SectionSet) (d : Nat) (e : RecordBody) (ho : s.order b = none)
      (hp : s.position b = some p) (hn : p ≠ .atOpen) : Demand s (((s.appendOrder b p c d).record e).issueOrder b)
  | reissue {s : State} {b : Nat} {o : Order} (left : Nat) (e : RecordBody) (ho : s.order b = some o) :
      Demand s (((s.renewOrder b left).record e).issueOrder b)
  | send (s : State) (b : Nat) : Demand s (s.attemptSend b)
  | remove (s : State) (b : Nat) : Demand s ((s.setOrders (s.trip.orders.filter fun o => o.breaker ≠ b)).withdrawTrip b)
  | control {s : State} {f : ControlFrame} (room : s.controlRoom = true) (hf : f ≠ .claim) : Demand s (s.pushControl f)

/-- A run of small changes. -/
abbrev Parts : State → State → Prop := ReflTransGen Part
/-- A run of trip demands. -/
abbrev Demands : State → State → Prop := ReflTransGen Demand

theorem Aside.demands {s t : State} (h : Aside s t) : Demands s t := .single (.aside h)
theorem Aside.parts {s t : State} (h : Aside s t) : Parts s t := .single (.aside h)

/-! ## Changes beside -/

theorem Aside.refl (s : State) : Aside s s := ⟨rfl, rfl, rfl, rfl, rfl, rfl, id, id, id⟩

theorem Aside.trans {s t u : State} (h : Aside s t) (k : Aside t u) : Aside s u :=
  ⟨k.loop.trans h.loop, k.orders.trans h.orders, k.nodes.trans h.nodes, k.active.trans h.active, k.hardReset.trans h.hardReset,
   k.state.trans h.state, k.disturbed ∘ h.disturbed, k.quiet ∘ h.quiet, k.persistence ∘ h.persistence⟩

/-- A change of fields that no invariant of orders, queues and timers reads. -/
theorem Aside.of_same {s t : State} (loop : t.loop = s.loop) (orders : t.trip.orders = s.trip.orders) (nodes : t.nodes = s.nodes)
    (active : t.agent.active = s.agent.active) (hardReset : t.hardReset = s.hardReset) (state : t.agent.state = s.agent.state)
    (disturbed : t.agent.disturbed = s.agent.disturbed) (lens : t.lens.state = s.lens.state)
    (records : t.sections.records = s.sections.records) : Aside s t where
  loop := loop
  orders := orders
  nodes := nodes
  active := active
  hardReset := hardReset
  state := state
  disturbed := disturbed.trans
  quiet := by
    unfold QuietWhileUndisturbed State.quiet State.anyLightOrTripped State.sectionRec
    rw [state, disturbed, orders, lens, records]
    exact id
  persistence := by
    unfold PersistenceInLight State.sectionRec
    rw [records]
    exact id

theorem record_aside (s : State) (b : RecordBody) : Aside s (s.record b) := .of_same rfl rfl rfl rfl rfl rfl rfl rfl rfl
theorem setLine_aside (s : State) (l : Nat) (x : TripLine) : Aside s (s.setLine l x) := .of_same rfl rfl rfl rfl rfl rfl rfl rfl rfl
theorem setPosition_aside (s : State) (b : Nat) (p : Position) : Aside s (s.setPosition b p) :=
  .of_same rfl rfl rfl rfl rfl rfl rfl rfl rfl
theorem setChannel_aside (s : State) (c : Nat) (r : ChannelRec) : Aside s (s.setChannel c r) :=
  .of_same rfl rfl rfl rfl rfl rfl rfl rfl rfl
theorem setPoint_aside (s : State) (p : Nat) (r : PointRec) : Aside s (s.setPoint p r) :=
  .of_same rfl rfl rfl rfl rfl rfl rfl rfl rfl
theorem setChannelView_aside (s : State) (c : Nat) (v : ChannelView) : Aside s (s.setChannelView c v) :=
  .of_same rfl rfl rfl rfl rfl rfl rfl rfl rfl
theorem setPointView_aside (s : State) (p : Nat) (v : PointView) : Aside s (s.setPointView p v) :=
  .of_same rfl rfl rfl rfl rfl rfl rfl rfl rfl

theorem driveLine_aside (s : State) (b : Nat) : Aside s (s.driveLine b) := by
  unfold State.driveLine
  split
  · split
    · exact .refl s
    · exact setLine_aside s _ _
  · exact .refl s

theorem reconsiderLine_aside (s : State) (b : Nat) : Aside s (s.reconsiderLine b) := by
  unfold State.reconsiderLine
  split
  · split
    · exact .refl s
    · exact setLine_aside s _ _
  · exact .refl s

theorem pulseExpiry_aside (s : State) (l : Nat) : Aside s (s.pulseExpiry l) := by
  unfold State.pulseExpiry
  split
  · exact setLine_aside s _ _
  · exact .refl s

/-- A validation that is under way is disturbed. -/
abbrev Disturbed (s : State) : Prop := s.agent.state = .validating → s.agent.disturbed = true

theorem disturb_disturbed (s : State) : Disturbed s.disturb := by
  unfold State.disturb
  split
  · exact fun _ => rfl
  · exact fun h => absurd h ‹_›

theorem disturb_keeps (s : State) (h : s.agent.disturbed = true) : s.disturb.agent.disturbed = true := by
  unfold State.disturb
  split
  · rfl
  · exact h

theorem quiet_of_disturbed {s : State} (h : Disturbed s) : QuietWhileUndisturbed s := fun v d => by
  rw [h v] at d; cases d

/-- What a setting of the disturbed marker leaves alone. -/
theorem disturb_same (s : State) : s.disturb.loop = s.loop ∧ s.disturb.trip = s.trip ∧ s.disturb.nodes = s.nodes ∧
    s.disturb.agent.active = s.agent.active ∧ s.disturb.hardReset = s.hardReset ∧ s.disturb.agent.state = s.agent.state ∧
    s.disturb.sections = s.sections ∧ s.disturb.lens = s.lens := by
  unfold State.disturb
  split <;> exact ⟨rfl, rfl, rfl, rfl, rfl, rfl, rfl, rfl⟩

/-- A change of the engine record that starts no test in an undisturbed validation. -/
theorem setLens_aside (s : State) (l : LensEngine) (h : Disturbed s ∨ (s.lens.state = .idle → l.state = .idle)) :
    Aside s (s.setLens l) where
  loop := rfl
  orders := rfl
  nodes := rfl
  active := rfl
  hardReset := rfl
  state := rfl
  disturbed := id
  quiet := by
    intro q
    rcases h with h | h
    · exact quiet_of_disturbed h
    · intro v d
      have := q v d
      simp only [State.quiet, Bool.and_eq_true, decide_eq_true_eq] at this ⊢
      exact ⟨this.1, h this.2⟩
  persistence := id

/-- The section is LIGHT or TRIPPED (R158). -/
abbrev SectionRec.lively (r : SectionRec) : Prop := r.state = .light ∨ r.state = .tripped

theorem quiet_iff (s : State) : s.quiet = true ↔
    s.trip.orders = [] ∧ (∀ i, i < Config.sectionCount → ¬ (s.sectionRec i).lively) ∧ s.lens.state = .idle := by
  simp [State.quiet, State.anyLightOrTripped, and_assoc, SectionRec.lively]

/-- A change of a section record that starts no episode and no timer outside LIGHT. -/
theorem setSection_aside (s : State) (i : Nat) (r : SectionRec)
    (lively : r.lively → (s.sectionRec i).lively ∨ Disturbed s)
    (timer : ((s.sectionRec i).persistence.isRunning = true → (s.sectionRec i).state = .light) →
      r.persistence.isRunning = true → r.state = .light) : Aside s (s.setSection i r) where
  loop := rfl
  orders := rfl
  nodes := rfl
  active := rfl
  hardReset := rfl
  state := rfl
  disturbed := id
  quiet := by
    intro q v d
    obtain ⟨orders, calm, lens⟩ := (quiet_iff s).1 (q v d)
    refine (quiet_iff _).2 ⟨orders, fun j hj => ?_, lens⟩
    rw [State.sectionRec_setSection]
    split
    · rename_i h
      obtain ⟨rfl, -⟩ := h
      intro l
      rcases lively l with k | k
      · exact calm i hj k
      · have d' : s.agent.disturbed = false := d
        rw [k v] at d'; cases d'
    · exact calm j hj
  persistence := by
    intro h j
    rw [State.sectionRec_setSection]
    split
    · exact timer (h i)
    · exact h j

/-- A section that begins an episode or trips, which disturbs a validation (R89, R94, R159). -/
theorem setSection_disturb_aside (s : State) (i : Nat) (r : SectionRec) (timer : r.persistence.isRunning = true → r.state = .light) :
    Aside s (s.setSection i r).disturb := by
  obtain ⟨h1, h2, h3, h4, h5, h6, h7, -⟩ := disturb_same (s.setSection i r)
  refine ⟨h1, congrArg _ h2, h3, h4, h5, h6, disturb_keeps (s.setSection i r), fun _ => quiet_of_disturbed (disturb_disturbed _),
    fun h j => ?_⟩
  rw [State.sectionRec_congr (congrArg SectionEvaluator.records h7), State.sectionRec_setSection]
  split
  · exact timer
  · exact h j

/-! ## Trip Dispatcher -/

theorem updateOrder_record_comm (s : State) (b : Nat) (f g : Order → Order) (e : RecordBody) (hf : ∀ o, (f o).breaker = o.breaker) :
    ((s.updateOrder b f).record e).updateOrder b g = (s.updateOrder b fun o => g (f o)).record e := by
  unfold State.updateOrder State.setOrders State.record
  simp only [List.map_map, State.mk.injEq, TripDispatcher.mk.injEq, true_and, and_true]
  refine List.map_congr_left fun o _ => ?_
  by_cases h : o.breaker = b <;> simp [h, hf]

theorem mergeWith_amends (o : Order) (c : SectionSet) (d : Nat) : Amends o fun o => o.mergeWith c d :=
  ⟨fun _ => rfl, fun _ => rfl, id, id⟩

theorem failed_amends {o : Order} (h : o.state = .issued) : Amends o fun o => { o with state := .failed, failure := .stopped } where
  breaker := fun _ => rfl
  waiting := fun _ => rfl
  issued := nofun
  timers := by
    rintro ⟨-, r⟩
    exact ⟨by simp [Timer.isRunning], by simp [r.2 (.inl h)]⟩

theorem opened_amends (o : Order) : Amends o fun o => { o with state := .opened, failure := .stopped, resend := .stopped } :=
  ⟨fun _ => rfl, fun _ => rfl, nofun, fun _ => by simp [Order.TimersInState, Timer.isRunning]⟩

theorem resend_amends {o : Order} (h : o.resend.isRunning = true) (n : Nat) : Amends o fun o => { o with resend := .running n } where
  breaker := fun _ => rfl
  waiting := fun _ => rfl
  issued := id
  timers := by
    rintro ⟨f, r⟩
    exact ⟨f, ⟨fun _ => r.1 h, fun _ => rfl⟩⟩

theorem causes_amends (o : Order) (c : SectionSet) : Amends o fun o => { o with causes := c } :=
  ⟨fun _ => rfl, fun _ => rfl, id, id⟩

theorem markFailed_byDemands {s : State} {b : Nat} {o : Order} (ho : s.order b = some o) (h : o.state = .issued) (r : FailReason) :
    Demands s (s.markFailed o r) := by
  obtain rfl := order_breaker ho
  exact ReflTransGen.head (.amend ho (failed_amends h)) (record_aside _ _).demands

/-- What is asked for nests in what an operation is given: `ask` is made of trip demands. -/
abbrev AskDemands (ask : Nat → SectionSet → Nat → State → State) : Prop := ∀ b c d s, Demands s (ask b c d s)

theorem demands_foldl {f : State → α → State} (hf : ∀ s a, Demands s (f s a)) (l : List α) (s : State) : Demands s (l.foldl f s) :=
  keeps_foldl (fun _ => ReflTransGen.refl) ReflTransGen.trans hf l s

theorem askBackups_byDemands {ask} (h : AskDemands ask) (b : Nat) (c : SectionSet) (d : Nat) (s : State) :
    Demands s (s.askBackups ask b c d) := demands_foldl (fun s b' => h b' c (d + 1) s) _ s

theorem escalate_byDemands {ask} (h : AskDemands ask) (o : Order) (s : State) : Demands s (s.escalate ask o) := by
  unfold State.escalate
  split
  · exact (record_aside s _).demands
  · split
    · exact (record_aside s _).demands
    · exact askBackups_byDemands h _ _ _ s

/-- An ISSUED order fails and escalates (R119, R120). -/
theorem failWith_byDemands {ask} (h : AskDemands ask) {s : State} {b : Nat} {o : Order} (ho : s.order b = some o)
    (hi : o.state = .issued) (r : FailReason) : Demands s (s.failWith ask b r) := by
  unfold State.failWith
  rw [ho]
  exact (markFailed_byDemands ho hi r).trans (escalate_byDemands h o _)

/-- The escalation after an order has failed at once (R120, R122). -/
theorem failIfCut_byDemands {ask} (h : AskDemands ask) (s : State) (b : Nat) : Demands (s.failAtOnce b) (s.failIfCut ask b) := by
  unfold State.failAtOnce State.failIfCut State.failWith
  split
  · cases s.order b with
    | none => exact .refl
    | some o => exact escalate_byDemands h _ _
  · exact .refl

theorem createOrder_byDemands {ask} (h : AskDemands ask) {s : State} {b : Nat} {p : Position} (ho : s.order b = none)
    (hp : s.position b = some p) (c : SectionSet) (d : Nat) : Demands s (s.createOrder ask b p c d) := by
  unfold State.createOrder
  dsimp only
  split
  · rename_i e
    subst e
    exact ReflTransGen.head (.append c d ho hp) (record_aside _ _).demands
  · exact ReflTransGen.head (.issue c d _ ho hp ‹_›) (failIfCut_byDemands h _ b)

theorem mergeOrder_byDemands {ask} (h : AskDemands ask) {s : State} {b : Nat} {o : Order} (ho : s.order b = some o) (c : SectionSet)
    (d : Nat) : Demands s (s.mergeOrder ask o c d) := by
  obtain rfl := order_breaker ho
  have k : Demand s (s.updateOrder o.breaker fun o => o.mergeWith c d) := .amend ho (mergeWith_amends o c d)
  unfold State.mergeOrder
  dsimp only
  split
  · exact ReflTransGen.head k (askBackups_byDemands h _ _ _ _)
  · exact .single k

theorem askOrder_byDemands (fuel : Nat) : AskDemands (askOrder fuel) := by
  induction fuel with
  | zero => exact fun _ _ _ s => .refl
  | succ n ih =>
    intro b c d s
    unfold askOrder
    split
    · exact mergeOrder_byDemands ih ‹_› c d
    · exact createOrder_byDemands ih ‹_› ‹_› c d
    · exact .refl

theorem ask_byDemands : AskDemands State.ask := askOrder_byDemands _

theorem askBoundary_byDemands (i : Nat) (bs : List Nat) (s : State) : Demands s (State.askBoundary i bs s) :=
  demands_foldl (fun s b => ask_byDemands b _ 0 s) bs s

theorem enterCut_byDemands (s : State) (b : Nat) : Demands s (s.enterCut b) := by
  unfold State.enterCut State.failIfCut
  split
  · split
    · split
      · exact failWith_byDemands ask_byDemands ‹_› ‹_› .cut
      · exact .refl
    · exact .refl
  · exact .refl

theorem openOrder_byDemands {s : State} {b : Nat} {o : Order} (ho : s.order b = some o) : Demands s (s.openOrder o) := by
  obtain rfl := order_breaker ho
  exact (ReflTransGen.head (.amend ho (opened_amends o)) (record_aside _ _).demands).trans (reconsiderLine_aside _ _).demands

theorem reissueOrder_byDemands {s : State} {b : Nat} {o : Order} (ho : s.order b = some o) (p : Position) :
    Demands s (s.reissueOrder o p) := by
  obtain rfl := order_breaker ho
  have renewed : ((s.updateOrder o.breaker fun o => { o with state := .issued, failure := .running (s.failureTime o.breaker) }).record
      (orderRecord .orderReissued o (value2 p.code.toNat o.depth))).updateOrder o.breaker
        (fun o => { o with resend := .running Config.resendTime }) =
      (s.renewOrder o.breaker (s.failureTime o.breaker)).record (orderRecord .orderReissued o (value2 p.code.toNat o.depth)) := by
    rw [updateOrder_record_comm _ _ (fun o => { o with
      state := .issued, failure := .running (s.failureTime o.breaker) }) _ _ fun _ => rfl]
    unfold State.renewOrder State.updateOrder
    congr 2
    refine List.map_congr_left fun q _ => ?_
    by_cases h : q.breaker = o.breaker <;> simp [h]
  unfold State.reissueOrder
  dsimp only
  rw [renewed]
  exact ReflTransGen.head (.reissue _ _ ho) (failIfCut_byDemands ask_byDemands _ _)

theorem orderSeesPosition_byDemands (s : State) (b : Nat) (p : Position) : Demands s (s.orderSeesPosition b p) := by
  unfold State.orderSeesPosition
  split
  · exact .refl
  · split
    · split
      · exact openOrder_byDemands ‹_›
      · exact .refl
    · split
      · exact reissueOrder_byDemands ‹_› p
      · exact .refl

theorem deliverPosition_byDemands (s : State) (b : Nat) (p : Position) : Demands s (s.deliverPosition b p) := by
  unfold State.deliverPosition
  split
  · exact .refl
  · split
    · exact .refl
    · exact ((setPosition_aside s b p).demands.trans (record_aside _ _).demands).trans (orderSeesPosition_byDemands _ b p)

theorem positionUnknown_aside (s : State) (b : Nat) : Aside s (s.positionUnknown b) := by
  unfold State.positionUnknown
  split
  · exact setPosition_aside s b _
  · exact .refl s

theorem resendExpiry_byDemands (s : State) (b : Nat) : Demands s (s.resendExpiry b) := by
  unfold State.resendExpiry
  split
  · split
    · exact ReflTransGen.head (.amend ‹_› (resend_amends ‹_› _)) (.single (.send _ b))
    · exact .refl
  · exact .refl

theorem failureExpiry_byDemands (s : State) (b : Nat) : Demands s (s.failureExpiry b) := by
  unfold State.failureExpiry
  split
  · split
    · rename_i h
      exact failWith_byDemands ask_byDemands ‹_› h.1 .timer
    · exact .refl
  · exact .refl

theorem removeCause_byDemands (i : Nat) (s : State) (b : Nat) : Demands s (State.removeCause i s b) := by
  unfold State.removeCause
  split
  · exact .refl
  · dsimp only
    split
    · exact .refl
    · split
      · exact ReflTransGen.head (.remove s b) (reconsiderLine_aside _ b).demands
      · exact .single (.amend ‹_› (causes_amends _ _))

theorem removeSection_byDemands (s : State) (i : Nat) : Demands s (s.removeSection i) := demands_foldl (removeCause_byDemands i) _ s

end Sys2Proof.Machine
end

section
/-! SUPPORT. The trip demands that the Section Evaluator, the Light Qualifier, the Current Confirmation Unit, the Lens Check Engine
and the delivery of a node frame are made of. -/

namespace Sys2Proof.Machine

open Sys2Proof.Safety
open Relation (ReflTransGen)

/-! ## Section Evaluator -/

theorem enterTripped_byDemands (s : State) (i : Nat) (c : Cause) : Demands s (s.enterTripped i c) :=
  ((setSection_disturb_aside s i { s.sectionRec i with
      state := .tripped, persistence := .stopped, persistentMade := false, unconfirmableMade := false } nofun).demands.trans
    (record_aside _ _).demands).trans (askBoundary_byDemands i _ _)

theorem beginLight_aside (s : State) (i : Nat) : Aside s (s.beginLight i) := setSection_disturb_aside s i _ fun _ => rfl

theorem alarmUnconfirmable_byDemands (s : State) (i : Nat) : Demands s (s.alarmUnconfirmable i) := by
  unfold State.alarmUnconfirmable
  dsimp only
  split
  · exact (record_aside s _).demands.trans (setSection_aside _ i _ (by exact .inl) (by exact id)).demands
  · exact .refl

theorem evaluate_byDemands (s : State) (i : Nat) (c : Cause) : Demands s (s.evaluate i c) := by
  unfold State.evaluate
  split
  · exact enterTripped_byDemands s i c
  · split
    · split
      · exact alarmUnconfirmable_byDemands s i
      · exact (beginLight_aside s i).demands.trans (alarmUnconfirmable_byDemands _ i)
    · exact (setSection_aside s i _ (by simp [SectionRec.lively]) (by simp [Timer.isRunning])).demands

theorem reportTo_byDemands (s : State) (i : Nat) (c : Cause) : Demands s (s.reportTo i c) := by
  unfold State.reportTo
  split
  · exact evaluate_byDemands s i c
  · exact .refl

theorem reportChannel_byDemands (s : State) (c : Nat) (v : ChannelView) : Demands s (s.reportChannel c v) := by
  unfold State.reportChannel
  dsimp only
  split
  · exact (setChannelView_aside s c v).demands.trans (reportTo_byDemands _ _ _)
  · exact (setChannelView_aside s c v).demands

theorem reportPoint_byDemands (s : State) (p : Nat) (v : PointView) : Demands s (s.reportPoint p v) :=
  (setPointView_aside s p v).demands.trans (demands_foldl (fun s i => by
    split
    · exact reportTo_byDemands s i _
    · exact .refl) _ _)

theorem recompute_byDemands (s : State) (i : Nat) : Demands s (s.recompute i) := by
  unfold State.recompute
  dsimp only
  split
  · exact (setSection_aside s i _ (by simp [SectionRec.lively]) (by simp [Timer.isRunning])).demands
  · split
    · exact (setSection_aside s i _ (fun _ => .inl (.inr ‹_›)) (by simp [Timer.isRunning])).demands
    · split
      · exact (setSection_aside s i _ (by simp [SectionRec.lively]) (by simp [Timer.isRunning])).demands
      · exact (setSection_aside s i _ (by simp [SectionRec.lively]) (by simp [Timer.isRunning])).demands.trans (evaluate_byDemands _ i _)

theorem persistenceExpiry_byDemands (s : State) (i : Nat) : Demands s (s.persistenceExpiry i) := by
  unfold State.persistenceExpiry
  dsimp only
  have stopped : Demands s (s.setSection i { s.sectionRec i with persistence := .stopped, persistentMade := true }) :=
    (setSection_aside s i _ (by exact .inl) (by simp [Timer.isRunning])).demands
  split
  · split
    · exact stopped
    · exact stopped.trans (record_aside _ _).demands
  · exact .refl

theorem onSection_byDemands {s : State} {i : Nat} {x : State × Result} (h : Demands s x.1) : Demands s (s.onSection i x).1 := by
  unfold State.onSection
  split
  · exact .refl
  · exact h

theorem setBlockOn_byDemands (s : State) (i : Nat) : Demands s (s.setBlockOn i).1 := by
  have set : Demands s (s.setSection i { s.sectionRec i with
      block := true
      state := if (s.sectionRec i).state = .armed ∨ (s.sectionRec i).state = .light then .blocked else (s.sectionRec i).state
      persistence := if (s.sectionRec i).state = .light then .stopped else (s.sectionRec i).persistence }) := by
    refine (setSection_aside s i _ ?_ ?_).demands
    all_goals cases h : (s.sectionRec i).state <;> simp [SectionRec.lively, h, Timer.isRunning]
  refine onSection_byDemands ?_
  dsimp only
  split
  · exact set
  · exact set.trans (record_aside _ _).demands

theorem setBlockOff_byDemands (s : State) (i : Nat) : Demands s (s.setBlockOff i).1 := by
  have set : ∀ r : SectionRec, r.persistence = (s.sectionRec i).persistence →
      ((s.sectionRec i).state = .blocked ∧ r.state = .armed ∨ r.state = (s.sectionRec i).state) →
      Demands s (if (s.sectionRec i).block then (s.setSection i r).record (flagRecord .blockChange i false)
        else s.setSection i r) := by
    intro r timer state
    have aside : Aside s (s.setSection i r) := by
      rcases state with ⟨blocked, armed⟩ | same
      · exact setSection_aside s i r (by simp [SectionRec.lively, armed]) (by simp [timer, blocked, armed])
      · exact setSection_aside s i r (by simp only [SectionRec.lively, same]; exact .inl) (by rw [timer, same]; exact id)
    split
    · exact aside.demands.trans (record_aside _ _).demands
    · exact aside.demands
  refine onSection_byDemands ?_
  dsimp only
  by_cases blocked : (s.sectionRec i).state = .blocked
  · rw [if_pos blocked, if_pos blocked]
    exact (set { s.sectionRec i with block := false, state := .armed } rfl (.inl ⟨blocked, rfl⟩)).trans
      (evaluate_byDemands _ i _)
  · rw [if_neg blocked, if_neg blocked]
    exact set _ rfl (.inr rfl)

theorem setMaintenance_byDemands (s : State) (i : Nat) (on : Bool) : Demands s (s.setMaintenance i on).1 := by
  refine onSection_byDemands ?_
  dsimp only
  split
  · exact .refl
  · exact ((setSection_aside s i _ (by exact .inl) (by exact id)).demands.trans (record_aside _ _).demands).trans
      (reportTo_byDemands _ i _)

theorem release_byDemands (s : State) (i : Nat) : Demands s (s.release i).1 := by
  have same : (s.removeSection i).sectionRec i = s.sectionRec i :=
    State.sectionRec_congr (congrArg SectionEvaluator.records (removeSection_kept s i).sections) i
  refine onSection_byDemands ?_
  split
  · rename_i h
    refine ((removeSection_byDemands s i).trans (setSection_aside _ i _ ?_ ?_).demands).trans (record_aside _ _).demands
    · intro
      rw [same]
      exact .inl (.inr h.1)
    · rw [same, h.1]
      intro timer running
      exact absurd (timer running) nofun
  · exact .refl

/-! ## Light Qualifier -/

theorem flickerRecord_aside (s : State) (c : Nat) (e : FlickerEvent) : Aside s (s.flickerRecord c e) := by
  cases e
  · exact .refl s
  · exact record_aside s _
  · exact record_aside s _

theorem changeChannel_byDemands (s : State) (c : Nat) (old new : ChannelRec) : Demands s (s.changeChannel c old new) := by
  unfold State.changeChannel
  dsimp only
  split
  · exact (setChannel_aside s c new).demands
  · exact (setChannel_aside s c new).demands.trans (reportChannel_byDemands _ _ _)

theorem processSample_byDemands (s : State) (c : Nat) (x : Sample) : Demands s (s.processSample c x) := by
  unfold State.processSample
  split
  · exact .refl
  · exact ((flickerRecord_aside s c _).demands.trans (flickerRecord_aside _ c _).demands).trans (changeChannel_byDemands _ c _ _)

theorem processMany_byDemands (s : State) (c : Nat) (x : Sample) (n : Nat) : Demands s (s.processMany c x n) := by
  induction n generalizing s with
  | zero => exact .refl
  | succ n ih => exact (processSample_byDemands s c x).trans (ih _)

theorem processDelivered_byDemands (s : State) (c level gap : Nat) : Demands s (s.processDelivered c level gap) := by
  unfold State.processDelivered
  split
  · exact .refl
  · exact ((processMany_byDemands s c _ _).trans (processMany_byDemands _ c _ _)).trans (processSample_byDemands _ c _)

theorem channelStale_byDemands (s : State) (c : Nat) : Demands s (s.channelStale c) := by
  unfold State.channelStale
  split
  · exact changeChannel_byDemands s c _ _
  · exact .refl

theorem channelLive_byDemands (s : State) (c : Nat) : Demands s (s.channelLive c) := by
  unfold State.channelLive
  split
  · split
    · exact changeChannel_byDemands s c _ _
    · exact .refl
  · exact .refl

theorem startTesting_byDemands (s : State) (c : Nat) : Demands s (s.startTesting c) := by
  unfold State.startTesting
  split
  · exact changeChannel_byDemands s c _ _
  · exact .refl

theorem handOver_aside (s : State) (c gain : Nat) (st : Standing) : Aside s (s.handOver c gain st) := by
  unfold State.handOver
  split
  · exact setChannel_aside s c _
  · exact .refl s

theorem leaveTesting_byDemands (s : State) (c : Nat) (a : Option Nat) : Demands s (s.leaveTesting c a) := by
  unfold State.leaveTesting
  split
  · split
    · exact .refl
    · split
      · dsimp only
        split
        · exact (changeChannel_byDemands s c _ _).trans (processSample_byDemands _ c _)
        · exact changeChannel_byDemands s c _ _
      · exact changeChannel_byDemands s c _ _
  · exact .refl

/-! ## Current Confirmation Unit -/

theorem changePoint_byDemands (s : State) (p : Nat) (old new : PointRec) : Demands s (s.changePoint p old new) := by
  unfold State.changePoint
  dsimp only
  split
  · exact (setPoint_aside s p new).demands
  · exact (setPoint_aside s p new).demands.trans (reportPoint_byDemands _ _ _)

theorem pointGap_byDemands (s : State) (p gap : Nat) : Demands s (s.pointGap p gap) := by
  unfold State.pointGap
  split
  · exact changePoint_byDemands s p _ _
  · exact .refl

theorem pointSample_byDemands (s : State) (p : Nat) (x : Phases) : Demands s (s.pointSample p x) := by
  unfold State.pointSample
  split
  · exact changePoint_byDemands s p _ _
  · exact .refl

theorem deliverPoint_byDemands (s : State) (p gap : Nat) (x : Phases) : Demands s (s.deliverPoint p gap x) :=
  (pointGap_byDemands s p gap).trans (pointSample_byDemands _ p x)

theorem pointStale_byDemands (s : State) (p : Nat) : Demands s (s.pointStale p) := by
  unfold State.pointStale
  split
  · exact changePoint_byDemands s p _ _
  · exact .refl

theorem pointLive_byDemands (s : State) (p : Nat) : Demands s (s.pointLive p) := by
  unfold State.pointLive
  split
  · split
    · exact changePoint_byDemands s p _ _
    · exact .refl
  · exact .refl

/-! ## Lens Check Engine -/

theorem offerTest_byDemands (s : State) (f : TestFrame) : Demands s (s.offerTest f) := by
  unfold State.offerTest
  split
  · rename_i h
    exact .single (.control h.2 nofun)
  · exact (setLens_aside s _ (.inr (by exact id))).demands

theorem putOutLamp_byDemands (s : State) (c : Nat) : Demands s (s.putOutLamp c) := by
  unfold State.putOutLamp
  split
  · exact (setLens_aside s _ (.inr (by exact id))).demands
  · split
    · exact .refl
    · exact offerTest_byDemands s _

theorem endTest_byDemands (s : State) (c : Nat) (r : LensResult) (a : Option Nat) : Demands s (s.endTest c r a) :=
  (((record_aside s _).demands.trans (leaveTesting_byDemands _ c a)).trans (putOutLamp_byDemands _ c)).trans
    (setLens_aside _ _ (.inr fun _ => rfl)).demands

theorem completeWindow_byDemands (s : State) (c : Nat) : Demands s (s.completeWindow c) := by
  unfold State.completeWindow
  split
  · exact .refl
  · exact (handOver_aside s c _ _).demands.trans (endTest_byDemands _ c _ _)

theorem countFlagged_byDemands {s : State} (h : s.lens.state ≠ .idle) (c n p : Nat) : Demands s (s.countFlagged c n p) := by
  have set : Demands s (s.setLens { s.lens with state := .measuring, startWait := .stopped, count := n, peak := p }) :=
    (setLens_aside s _ (.inr fun e => absurd e h)).demands
  unfold State.countFlagged
  dsimp only
  split
  · exact set.trans (completeWindow_byDemands _ c)
  · exact set

theorem lensSample_byDemands (s : State) (c level : Nat) (flag : Bool) : Demands s (s.lensSample c level flag) := by
  unfold State.lensSample
  split
  · exact .refl
  · rename_i h
    have busy : s.lens.state ≠ .idle := fun e => h (.inr e)
    split
    · exact endTest_byDemands s c _ _
    · split
      · exact countFlagged_byDemands busy c _ _
      · exact endTest_byDemands s c _ _
      · exact countFlagged_byDemands busy c _ _
      · exact .refl

theorem deliverLight_byDemands (s : State) (c level : Nat) (flag : Bool) (gap : Nat) :
    Demands s (s.deliverLight c level flag gap) := by
  unfold State.deliverLight
  split
  · exact .refl
  · dsimp only
    split
    · exact (setChannel_aside s c _).demands.trans (processDelivered_byDemands _ c _ _)
    · exact (setChannel_aside s c _).demands.trans (processDelivered_byDemands _ c _ _)
    · exact (setChannel_aside s c _).demands.trans (lensSample_byDemands _ c _ _)
    · exact (setChannel_aside s c _).demands

theorem startWaitExpiry_byDemands (s : State) : Demands s s.startWaitExpiry := by
  unfold State.startWaitExpiry
  split
  · exact endTest_byDemands s _ _ _
  · exact .refl

theorem testWindowComplete_byDemands (s : State) : Demands s s.testWindowComplete := by
  unfold State.testWindowComplete
  split
  · rename_i measuring _
    split
    · exact countFlagged_byDemands (by simp [measuring]) _ _ _
    · exact .refl
  · exact .refl

theorem lensNodeStale_byDemands (s : State) (n : Nat) : Demands s (s.lensNodeStale n) := by
  unfold State.lensNodeStale
  split
  · exact .refl
  · exact .refl
  · split
    · exact endTest_byDemands s _ _ _
    · exact .refl

end Sys2Proof.Machine
end

section
/-! SUPPORT. What every trip demand leaves alone, and the small changes that it and a new cut set are made of. -/

namespace Sys2Proof.Machine

open Sys2Proof.Safety
open Relation (ReflTransGen)

/-! ## What every trip demand leaves alone -/

theorem startNext_agent (s : State) : s.startNext.agent = s.agent := by
  unfold State.startNext
  split <;> rfl

theorem startIfIdle_agent (s : State) : s.startIfIdle.agent = s.agent := by
  unfold State.startIfIdle
  split
  · exact startNext_agent s
  · rfl

theorem attemptSend_agent (s : State) (b : Nat) : (s.attemptSend b).agent = s.agent := by
  unfold State.attemptSend
  split
  · split
    · exact startIfIdle_agent _
    · rfl
  · rfl

theorem driveLine_agent (s : State) (b : Nat) : (s.driveLine b).agent = s.agent := by
  unfold State.driveLine
  repeat' split
  all_goals rfl

theorem failAtOnce_agent (s : State) (b : Nat) : (s.failAtOnce b).agent = s.agent := by
  unfold State.failAtOnce
  repeat' split
  all_goals rfl

theorem failAtOnce_kept (s : State) (b : Nat) : KeptByOrders s (s.failAtOnce b) := by
  unfold State.failAtOnce
  repeat' split
  · exact markFailed_kept s _ _
  all_goals exact .refl s

theorem issueOrder_kept (s : State) (b : Nat) : KeptByOrders s (s.issueOrder b) :=
  ((attemptSend_kept s b).trans (driveLine_kept _ b)).trans (failAtOnce_kept _ b)

theorem issueOrder_agent (s : State) (b : Nat) : (s.issueOrder b).agent = s.agent :=
  (failAtOnce_agent _ b).trans ((driveLine_agent _ b).trans (attemptSend_agent s b))

theorem appendOrder_kept (s : State) (b : Nat) (p : Position) (c : SectionSet) (d : Nat) :
    KeptByOrders s (s.appendOrder b p c d) := (setOrders_kept s _).trans (disturb_kept _)

theorem renewOrder_kept (s : State) (b left : Nat) : KeptByOrders s (s.renewOrder b left) := updateOrder_kept s b _

/-- What every trip demand leaves alone: the Loop Port's rest, the nodes, the tables, and a disturbed validation. -/
structure DemandKeeps (s t : State) : Prop where
  loopRest : t.loop.rest = s.loop.rest
  nodes : t.nodes = s.nodes
  active : t.agent.active = s.agent.active
  hardReset : t.hardReset = s.hardReset
  state : t.agent.state = s.agent.state
  disturbed : s.agent.disturbed = true → t.agent.disturbed = true

theorem DemandKeeps.refl (s : State) : DemandKeeps s s := ⟨rfl, rfl, rfl, rfl, rfl, id⟩

theorem DemandKeeps.trans {s t u : State} (h : DemandKeeps s t) (k : DemandKeeps t u) : DemandKeeps s u :=
  ⟨k.loopRest.trans h.loopRest, k.nodes.trans h.nodes, k.active.trans h.active, k.hardReset.trans h.hardReset,
   k.state.trans h.state, k.disturbed ∘ h.disturbed⟩

theorem Aside.keeps {s t : State} (h : Aside s t) : DemandKeeps s t :=
  ⟨congrArg _ h.loop, h.nodes, h.active, h.hardReset, h.state, h.disturbed⟩

/-- An operation of the Trip Dispatcher that leaves the agent alone. -/
theorem KeptByOrders.demandKeeps {s t : State} (h : KeptByOrders s t) (agent : s.agent.disturbed = true → t.agent.disturbed = true) :
    DemandKeeps s t := ⟨h.loopRest, h.nodes, h.active, h.hardReset, h.state, agent⟩

theorem issueOrder_keeps (s : State) (b : Nat) : DemandKeeps s (s.issueOrder b) :=
  (issueOrder_kept s b).demandKeeps (by rw [issueOrder_agent]; exact id)

theorem Demand.keeps {s t : State} (h : Demand s t) : DemandKeeps s t := by
  have appended : ∀ b p c d, DemandKeeps s (s.appendOrder b p c d) := fun b p c d =>
    (appendOrder_kept s b p c d).demandKeeps
      (disturb_keeps (s.setOrders (s.trip.orders ++ [s.newOrder b p c d])))
  cases h with
  | aside h => exact h.keeps
  | amend ho ha => exact (updateOrder_kept s _ _).demandKeeps id
  | append c d ho hp => exact appended _ _ _ _
  | issue c d e ho hp hn => exact ((appended _ _ _ _).trans (record_aside _ e).keeps).trans (issueOrder_keeps _ _)
  | reissue left e ho =>
    exact (((renewOrder_kept s _ left).demandKeeps id).trans (record_aside _ e).keeps).trans (issueOrder_keeps _ _)
  | send b => exact (attemptSend_kept s b).demandKeeps (by rw [attemptSend_agent]; exact id)
  | remove b => exact ((setOrders_kept s _).trans (withdrawTrip_kept _ b)).demandKeeps id
  | control room hf =>
    refine (pushControl_kept s _).demandKeeps ?_
    rw [show (s.pushControl _).agent = s.agent from startIfIdle_agent _]
    exact id

theorem Demands.keeps {s t : State} (h : Demands s t) : DemandKeeps s t := by
  induction h with
  | refl => exact .refl s
  | tail _ k ih => exact ih.trans k.keeps

/-! ## The parts of a trip demand -/

theorem order_appendOrder {s : State} {b : Nat} (h : s.order b = none) (p : Position) (c : SectionSet) (d : Nat) :
    (s.appendOrder b p c d).order b = some (s.newOrder b p c d) := by
  have e : (s.appendOrder b p c d).trip.orders = s.trip.orders ++ [s.newOrder b p c d] := disturb_orders _
  unfold State.order at h ⊢
  rw [e, List.find?_append, h]
  simp [(newOrder_fields s b p c d).1]

theorem order_renewOrder {s : State} {b : Nat} {o : Order} (h : s.order b = some o) (left : Nat) :
    (s.renewOrder b left).order b = some { o with
      state := .issued, failure := .running left, resend := .running Config.resendTime } := by
  unfold State.renewOrder
  rw [order_updateOrder s b b (fun o => { o with
    state := .issued, failure := .running left, resend := .running Config.resendTime }) fun _ => rfl, if_pos rfl, h]
  rfl

theorem newOrder_issued (s : State) {b : Nat} {p : Position} (h : p ≠ .atOpen) (c : SectionSet) (d : Nat) :
    s.newOrder b p c d =
      ⟨b, .issued, c, d, s.deviceTime, 0, .running (s.failureTime b), .running Config.resendTime, false⟩ := if_neg h

/-- An order that is ISSUED before it is sent and drives its line is so after. -/
theorem order_sent {s : State} {b : Nat} {o : Order} (ho : s.order b = some o) (hi : o.state = .issued) :
    ∃ copy, ((s.attemptSend b).driveLine b).order b = some { o with waiting := copy } := by
  obtain ⟨copy, h, -⟩ := attemptSend_attempted s b o ho (by simp [Order.unopened, hi])
  exact ⟨copy, (State.order_congr (driveLine_orders _ b) b).trans h⟩

theorem issueOrder_byParts {s : State} {b : Nat} {o : Order} (ho : s.order b = some o) (hi : o.state = .issued) :
    Parts s (s.issueOrder b) := by
  obtain ⟨copy, h⟩ := order_sent ho hi
  have sent : Parts s ((s.attemptSend b).driveLine b) := (ReflTransGen.single (.send s b)).trans (driveLine_aside _ b).parts
  unfold State.issueOrder State.failAtOnce
  split
  · rw [h]
    obtain rfl := order_breaker h
    exact (sent.tail (.amend h (failed_amends hi))).trans (record_aside _ _).parts
  · exact sent

theorem Demand.parts {s t : State} (h : Demand s t) : Parts s t := by
  cases h with
  | aside h => exact h.parts
  | amend ho ha => exact .single (.amend ho ha)
  | append c d ho hp => exact .single (.append c d ho hp)
  | @issue b p c d e ho hp hn =>
    have new : ((s.appendOrder b p c d).record e).order b = some (s.newOrder b p c d) := order_appendOrder ho p c d
    exact (ReflTransGen.head (.append c d ho hp) (record_aside _ e).parts).trans
      (issueOrder_byParts new (by rw [newOrder_issued s hn]))
  | @reissue b o left e ho =>
    have new := order_renewOrder ho left
    exact (ReflTransGen.head (.renew left ho) (record_aside _ e).parts).trans
      (issueOrder_byParts (s := (s.renewOrder b left).record e) new rfl)
  | send b => exact .single (.send s b)
  | remove b => exact .single (.remove s b)
  | control room hf => exact .single (.control room hf)

theorem Demands.parts {s t : State} (h : Demands s t) : Parts s t := by
  induction h with
  | refl => exact .refl
  | tail _ k ih => exact ih.trans k.parts

/-- A new cut set: the breakers that have entered it fail their orders, and their frames are withdrawn (R20, R21). -/
theorem recomputeCut_byParts {s : State} (h : s.loop.state = .loopOpen) : Parts s s.recomputeCut :=
  (ReflTransGen.head (.cut s.breakPosition (s.cutSetAt s.breakPosition) h)
    (Demands.parts (demands_foldl enterCut_byDemands _ _))).trans
    (keeps_foldl (fun _ => ReflTransGen.refl) ReflTransGen.trans (fun s b => .single (.withdraw s b)) _ _)

end Sys2Proof.Machine
end

section
/-! SUPPORT. The changes that the events of the Loop Port, of Node Admission and of the Management Agent are made of, and what one step
is: a run of changes, or one of the few events that leave an invariant for a moment. -/

namespace Sys2Proof.Machine

open Sys2Proof.Safety
open Relation (ReflTransGen)

/-- A timer of the Loop Port stands, or starts again while it runs or in its state (R12 to R17). -/
def Retimed (before after : Timer) (inState : Prop) : Prop :=
  after = before ∨ after.isRunning = true ∧ (before.isRunning = true ∨ inState)

/-- A validation begins, which needs a quiet switchgear (R158), or ends (R160). -/
structure Exchange (s t : State) : Prop where
  loop : t.loop = s.loop
  trip : t.trip = s.trip
  nodes : t.nodes = s.nodes
  active : t.agent.active = s.agent.active
  hardReset : t.hardReset = s.hardReset
  sections : t.sections = s.sections
  lens : t.lens = s.lens
  quiet : QuietWhileUndisturbed t

/-- The changes that an event outside a reset is made of, but for an entry to OPEN, a change of a live state and an activation. -/
inductive Change : State → State → Prop
  | demand {s t : State} (h : Demand s t) : Change s t
  | heard {s : State} {n : Nat} (seq : Byte) (left : Nat) (h : s.nodeLive n = true) :
      Change s (s.setNode n ⟨.live, some seq, .running left⟩)
  | recut {s : State} (h : s.loop.state = .loopOpen) : Change s s.recomputeCut
  | claiming (s : State) : Change s (s.setLoop s.loop.toClaiming)
  | claimQueued (s : State) : Change s s.queueWaitingClaim
  | response {s : State} (r : Response) (room : s.routineRoom = true) : Change s (s.pushRoutine r)
  | retimed {s : State} (result : ClaimResult) {send supervision beacon : Timer}
      (hs : Retimed s.loop.sendTimer send (s.loop.state = .loopClosed))
      (hv : Retimed s.loop.supervisionTimer supervision (s.loop.state = .loopClosed))
      (hb : Retimed s.loop.beaconTimer beacon (s.loop.state = .loopOpen)) :
      Change s (s.setLoop { s.loop with
        result := result, sendTimer := send, supervisionTimer := supervision, beaconTimer := beacon })
  | claimSent (s : State) (x : Sending) : Change s (s.claimSent x)
  | startNext (s : State) : Change s s.startNext
  | closed {s : State} {seq : Byte} (list : List Byte) (result : ClaimResult) (hs : s.loop.state = .claiming)
      (ho : s.loop.outstanding = some seq) :
      Change s (s.setLoop ({ s.loop with claimList := list, result := result } : LoopPort).toClosed)
  | exchange {s t : State} (h : Exchange s t) : Change s t

/-- A run of changes. -/
abbrev Changes : State → State → Prop := ReflTransGen Change

theorem Demands.changes {s t : State} (h : Demands s t) : Changes s t := ReflTransGen.mono (fun _ _ h => Change.demand h) _ _ h
theorem Aside.changes {s t : State} (h : Aside s t) : Changes s t := Demands.changes h.demands
theorem Change.run {s t : State} (h : Change s t) : Changes s t := .single h

/-! ## Loop Port -/

theorem offerHeldTests_byDemands (s : State) (n : Nat) : Demands s (s.offerHeldTests n) := by
  induction n generalizing s with
  | zero => exact .refl
  | succ n ih =>
    unfold State.offerHeldTests
    split
    · exact .refl
    · rename_i f rest _
      split
      · rename_i room
        have pushed : Demands (s.setLens { s.lens with held := rest })
            ((s.setLens { s.lens with held := rest }).pushControl (.test f)) := .single (.control room nofun)
        exact ((setLens_aside s _ (.inr (by exact id))).demands.trans pushed).trans (ih _)
      · exact .refl

theorem queueHeldTests_byDemands (s : State) : Demands s s.queueHeldTests := by
  unfold State.queueHeldTests
  split
  · exact .refl
  · exact offerHeldTests_byDemands s _

/-- A change of the held responses. -/
theorem setHeld_aside (s : State) (held : List Response) : Aside s { s with agent := { s.agent with held := held } } :=
  .of_same rfl rfl rfl rfl rfl rfl rfl rfl rfl

theorem offerHeldResponses_byChanges (s : State) (n : Nat) : Changes s (s.offerHeldResponses n) := by
  induction n generalizing s with
  | zero => exact .refl
  | succ n ih =>
    unfold State.offerHeldResponses
    split
    · exact .refl
    · split
      · rename_i rest _ room
        exact ((setHeld_aside s rest).changes.trans
          (Change.response (s := { s with agent := { s.agent with held := rest } }) _ room).run).trans (ih _)
      · exact .refl

theorem tellControlRoom_byChanges (s : State) : Changes s s.tellControlRoom :=
  (Change.claimQueued s).run.trans (queueHeldTests_byDemands _).changes

theorem settleRoom_byChanges (s : State) : Changes s s.settleRoom :=
  (tellControlRoom_byChanges s).trans (offerHeldResponses_byChanges _ _)

theorem enterClaiming_byChanges (s : State) : Changes s s.enterClaiming :=
  (Change.claiming s).run.trans (Change.claimQueued _).run

theorem queueOrSkip_byDemands (s : State) {f : ControlFrame} (hf : f ≠ .claim) : Demands s (s.queueOrSkip f) := by
  unfold State.queueOrSkip
  split
  · exact .single (.control ‹_› hf)
  · exact .refl

theorem supervisionReturns_byChanges (s : State) : Changes s s.supervisionReturns := by
  unfold State.supervisionReturns
  split
  · exact (Change.retimed s.loop.result (.inl rfl) (.inr ⟨rfl, .inr ‹_›⟩) (.inl rfl)).run
  · exact .refl

theorem beaconReturns_byChanges (s : State) : Changes s s.beaconReturns := by
  unfold State.beaconReturns
  split
  · exact (enterClaiming_byChanges s).trans (settleRoom_byChanges _)
  · exact .refl

theorem claimReturns_byChanges (s : State) (seq : Byte) (p : List Byte) : Changes s (s.claimReturns seq p) := by
  unfold State.claimReturns
  split
  · exact .refl
  · split
    · rename_i h
      exact (record_aside s _).changes.trans (Change.closed (s := s.record _) _ _ h.1 h.2).run
    · exact .refl

theorem supervisionSendExpiry_byChanges (s : State) : Changes s s.supervisionSendExpiry := by
  unfold State.supervisionSendExpiry
  split
  · exact (Change.retimed s.loop.result (.inr ⟨rfl, .inl ‹_›⟩) (.inl rfl) (.inl rfl)).run.trans
      (queueOrSkip_byDemands _ (by exact nofun)).changes
  · exact .refl

theorem beaconExpiry_byChanges (s : State) : Changes s s.beaconExpiry := by
  unfold State.beaconExpiry
  split
  · exact (Change.retimed s.loop.result (.inl rfl) (.inl rfl) (.inr ⟨rfl, .inl ‹_›⟩)).run.trans
      (queueOrSkip_byDemands _ (by exact nofun)).changes
  · exact .refl

/-- The Loop Port on a new table set (R19): in OPEN the cut set is recomputed, and in the other states nothing but the claim result
changes. -/
theorem loopActivation_byChanges (s : State) : Changes s s.loopActivation := by
  unfold State.loopActivation
  split
  · have set : ∀ result, Changes s (s.setLoop { s.loop with result := result }) :=
      fun result => (Change.retimed result (.inl rfl) (.inl rfl) (.inl rfl)).run
    dsimp only
    split
    · exact set _
    · exact (set _).trans (record_aside _ _).changes
  · exact (Change.recut ‹_›).run
  · exact .refl

/-! ## Node Admission -/

theorem tellStale_byDemands (n : Nat) (s : State) : Demands s (State.tellStale n s) := by
  unfold State.tellStale
  exact (((demands_foldl channelStale_byDemands (s.channelsOfNode n) s).trans (demands_foldl pointStale_byDemands _ _)).trans
    (demands_foldl (fun s b => (positionUnknown_aside s b).demands) _ _)).trans (lensNodeStale_byDemands _ n)

theorem tellLive_byDemands (n : Nat) (s : State) : Demands s (State.tellLive n s) :=
  (demands_foldl channelLive_byDemands _ s).trans (demands_foldl pointLive_byDemands _ _)

/-- The order in which the Loop Port and the other neighbours are told is drawn (log entry 8). -/
theorem draws_aside (s : State) : Aside s { s with draws := s.draws + 1 } := .of_same rfl rfl rfl rfl rfl rfl rfl rfl rfl

theorem deliver_byDemands (s : State) (n gap : Nat) (c : Contents) : Demands s (s.deliver n gap c) := by
  cases c with
  | light xs =>
    exact deliverAll_keeps (fun _ => .refl) ReflTransGen.trans (fun s c x => deliverLight_byDemands s c _ _ _) 0 xs s
  | current xs =>
    exact deliverAll_keeps (fun _ => .refl) ReflTransGen.trans (fun s p x => deliverPoint_byDemands s p _ x) 0 xs s
  | positions xs =>
    exact deliverAll_keeps (fun _ => .refl) ReflTransGen.trans (fun s b x => deliverPosition_byDemands s b x) 0 xs s

theorem stayLive_byChanges {s : State} {n : Nat} (h : s.nodeLive n = true) (seq : Byte) (d : Nat) :
    Changes s (s.stayLive n seq d) := by
  have set : Changes s (s.setNode n ⟨.live, some seq, .running (s.staleLimit n)⟩) := (Change.heard _ _ h).run
  unfold State.stayLive
  dsimp only
  split
  · exact set.trans (record_aside _ _).changes
  · exact set

/-! ## Management Agent -/

theorem respond_byChanges (s : State) (r : Response) : Changes s (s.respond r) := by
  unfold State.respond
  split
  · exact (Change.response _ ‹_›).run
  · exact (setHeld_aside s _).changes

/-- An accepted test disturbs a validation before the engine is STARTING (R135, R159). -/
theorem acceptTest_byDemands (s : State) (c : Nat) : Demands s (s.acceptTest c) := by
  set u := (s.setLens { s.lens with channel := some c, peak := 0, count := 0 }).disturb with hu
  have begun : Aside s u := by
    obtain ⟨h1, h2, h3, h4, h5, h6, h7, -⟩ := disturb_same (s.setLens { s.lens with channel := some c, peak := 0, count := 0 })
    refine ⟨h1, congrArg _ h2, h3, h4, h5, h6, disturb_keeps (s.setLens { s.lens with channel := some c, peak := 0, count := 0 }),
      fun _ => quiet_of_disturbed (disturb_disturbed _), fun h j => ?_⟩
    rw [hu, State.sectionRec_congr (congrArg SectionEvaluator.records h7)]
    exact h j
  have offered : Demands u ((u.startTesting c).offerTest ((u.startTesting c).testFrame c true)) :=
    (startTesting_byDemands u c).trans (offerTest_byDemands _ _)
  have kept := Demands.keeps offered
  have still : Disturbed ((u.startTesting c).offerTest ((u.startTesting c).testFrame c true)) := fun v =>
    kept.disturbed (disturb_disturbed (s.setLens { s.lens with channel := some c, peak := 0, count := 0 }) (kept.state.symm.trans v))
  exact (begun.demands.trans offered).trans (setLens_aside _ _ (.inl still)).demands

theorem testLens_byDemands (s : State) (c : Nat) : Demands s (s.testLens c).1 := by
  unfold State.testLens
  split
  · exact acceptTest_byDemands s c
  · exact .refl

/-- A change of the Event Pool, of the shadow set, or of the pending soft reset. -/
theorem setPool_aside (s : State) (p : EventPool) : Aside s { s with pool := p } := .of_same rfl rfl rfl rfl rfl rfl rfl rfl rfl
theorem setShadow_aside (s : State) (t : Tables) : Aside s { s with agent := { s.agent with shadow := t } } :=
  .of_same rfl rfl rfl rfl rfl rfl rfl rfl rfl
theorem setSoftResetPending_aside (s : State) : Aside s { s with agent := { s.agent with softResetPending := true } } :=
  .of_same rfl rfl rfl rfl rfl rfl rfl rfl rfl

/-- A request refused or answered from what the part holds leaves the state as it is. -/
theorem serveReading_same (code source tag : Byte) (ps : List Byte) (s : State)
    (h : RequestCode.ofCode code ∈ [none, some .readStatus, some .readChannel, some .readOrders, some .readTable]) :
    (serveCode code source tag ps s).1 = s := by
  simp only [List.mem_cons, List.not_mem_nil, or_false] at h
  unfold serveCode
  rcases h with e | e | e | e | e <;> rw [e]
  · rfl
  · unfold serveReadStatus
    dsimp only
    split <;> rfl
  · unfold serveReadChannel
    dsimp only
    repeat' split
    all_goals rfl
  · unfold serveReadOrders
    dsimp only
    repeat' split
    all_goals rfl
  · unfold serveReadTable
    dsimp only
    repeat' split
    all_goals rfl

theorem serveReadEvents_aside (ps : List Byte) (s : State) : Aside s (serveReadEvents ps s).1 := by
  unfold serveReadEvents
  repeat' split
  · exact setPool_aside s _
  all_goals exact .refl s

theorem serveWriteShadow_aside (ps : List Byte) (s : State) : Aside s (serveWriteShadow ps s).1 := by
  unfold serveWriteShadow
  split
  · split
    · exact .refl s
    · split
      · exact .refl s
      · split
        · exact .refl s
        · split
          · exact .refl s
          · exact setShadow_aside s _
  · exact .refl s

theorem serveDiscardShadow_aside (ps : List Byte) (s : State) : Aside s (serveDiscardShadow ps s).1 := by
  unfold serveDiscardShadow
  split
  · exact .refl s
  · split
    · exact .refl s
    · exact setShadow_aside s _

theorem serveActivate_byChanges (source tag : Byte) (ps : List Byte) (s : State) :
    Changes s (serveActivate source tag ps s).1 := by
  unfold serveActivate
  split
  · exact .refl
  · split
    · exact .refl
    · split
      · exact .refl
      · split
        · exact .refl
        · rename_i quiet
          rw [Bool.not_eq_false] at quiet
          have begun : Exchange s { s with agent := { s.agent with
              state := .validating, activation := some ⟨tag, source⟩, disturbed := false } } :=
            ⟨rfl, rfl, rfl, rfl, rfl, rfl, rfl, fun _ _ => quiet⟩
          exact (Change.exchange begun).run

theorem serveRelease_byDemands (ps : List Byte) (s : State) : Demands s (serveRelease ps s).1 := by
  unfold serveRelease
  split
  · exact release_byDemands s _
  · exact .refl

theorem serveSetMaintenance_byDemands (ps : List Byte) (s : State) : Demands s (serveSetMaintenance ps s).1 := by
  unfold serveSetMaintenance
  split
  · split
    · exact setMaintenance_byDemands s _ _
    · exact .refl
  · exact .refl

theorem serveSetBlock_byDemands (ps : List Byte) (s : State) : Demands s (serveSetBlock ps s).1 := by
  unfold serveSetBlock
  split
  · split
    · exact setBlockOn_byDemands s _
    · exact setBlockOff_byDemands s _
    · exact .refl
  · exact .refl

theorem serveTestLens_byDemands (ps : List Byte) (s : State) : Demands s (serveTestLens ps s).1 := by
  unfold serveTestLens
  split
  · exact testLens_byDemands s _
  · exact .refl

theorem serveReclaim_byChanges (ps : List Byte) (s : State) : Changes s (serveReclaim ps s).1 := by
  unfold serveReclaim
  split
  · exact (enterClaiming_byChanges s).trans (settleRoom_byChanges _)
  · exact .refl

theorem serveSoftReset_aside (ps : List Byte) (s : State) : Aside s (serveSoftReset ps s).1 := by
  unfold serveSoftReset
  split
  · exact setSoftResetPending_aside s
  · exact .refl s

/-- What serving a request leaves is made of changes. -/
theorem serveCode_byChanges (code source tag : Byte) (ps : List Byte) (s : State) :
    Changes s (serveCode code source tag ps s).1 := by
  have reading := serveReading_same code source tag ps s
  unfold serveCode at reading ⊢
  split
  case h_2 => exact (serveReadEvents_aside ps s).changes
  case h_6 => exact (serveWriteShadow_aside ps s).changes
  case h_7 => exact (serveDiscardShadow_aside ps s).changes
  case h_8 => exact serveActivate_byChanges source tag ps s
  case h_9 => exact Demands.changes (serveRelease_byDemands ps s)
  case h_10 => exact Demands.changes (serveSetMaintenance_byDemands ps s)
  case h_11 => exact Demands.changes (serveSetBlock_byDemands ps s)
  case h_12 => exact Demands.changes (serveTestLens_byDemands ps s)
  case h_13 => exact serveReclaim_byChanges ps s
  case h_14 => exact (serveSoftReset_aside ps s).changes
  all_goals
    rename_i e
    rw [e] at reading
    rw [reading (by simp)]

theorem takeRequest_byChanges (source tag code : Byte) (ps : List Byte) (s : State) :
    Changes s (s.takeRequest source tag code (serveCode code source tag ps)) := by
  have served := serveCode_byChanges code source tag ps s
  unfold State.takeRequest
  split
  · exact .refl
  · split <;> rename_i e <;> rw [e] at served
    · exact served.trans (respond_byChanges _ _)
    · exact served

theorem requestFrame_byChanges (s : State) (source : Byte) (payload : List Byte) : Changes s (s.requestFrame source payload) := by
  unfold State.requestFrame
  split
  · exact takeRequest_byChanges _ _ _ _ s
  · exact .refl

theorem endValidation_change (s : State) : Change s s.endValidation :=
  .exchange ⟨rfl, rfl, rfl, rfl, rfl, rfl, rfl, fun v => absurd v (by simp [State.endValidation])⟩

/-! ## Setting Store and Supply Monitor -/

theorem setStore_aside (s : State) (x : SettingStore) : Aside s { s with store := x } := .of_same rfl rfl rfl rfl rfl rfl rfl rfl rfl
theorem setSupply_aside (s : State) (x : SupplyMonitor) : Aside s { s with supply := x } :=
  .of_same rfl rfl rfl rfl rfl rfl rfl rfl rfl

theorem storeComplete_byDemands (s : State) (a : Bool) : Demands s (s.storeComplete a) := by
  unfold State.storeComplete
  split
  · exact (setStore_aside s _).demands.trans (record_aside _ _).demands
  · exact .refl

theorem warningFall_byDemands (s : State) : Demands s s.warningFall := by
  unfold State.warningFall
  split
  · exact .refl
  · exact (setSupply_aside s _).demands.trans (record_aside _ _).demands

theorem warningRise_byDemands (s : State) : Demands s s.warningRise := by
  unfold State.warningRise
  split
  · exact (setSupply_aside s _).demands.trans (record_aside _ _).demands
  · exact .refl

/-! ## Activation (R161) -/

/-- The new tables with the records carried over, before the Loop Port and the Section Evaluator act on them: steps 1 to 5 of R161. -/
def State.newTables (s : State) : State :=
  let u : State := { s with agent := { s.agent with active := s.agent.shadow, mode := .protecting } }
  ((((u.carryNodes s.tables).carryChannels s.tables).carryPoints s.tables).carryBreakers s.tables).record (activatedRecord s.agent.mode)

theorem swap_eq (s : State) : s.swap = s.newTables.loopActivation.recomputeSections.beginStoreWrite := rfl

theorem refreshView_aside (s : State) : Aside s s.refreshView := by
  obtain ⟨nodes, -, -, trip, -, -, loop, agent, records⟩ := refreshView_same s
  exact .of_same loop (congrArg _ trip) nodes (congrArg _ agent) (by simp only [State.refreshView]) (congrArg _ agent)
    (congrArg _ agent) (by simp only [State.refreshView]) records

theorem recomputeSections_byDemands (s : State) : Demands s s.recomputeSections :=
  (refreshView_aside s).demands.trans (demands_foldl recompute_byDemands _ _)

theorem beginStoreWrite_aside (s : State) : Aside s s.beginStoreWrite := setStore_aside s _

/-- Steps 7 and 8 of R161, and the end of the validation. -/
theorem swapEnds_byChanges (s : State) : Changes s s.recomputeSections.beginStoreWrite.endValidation :=
  (Demands.changes ((recomputeSections_byDemands s).trans (beginStoreWrite_aside _).demands)).trans (endValidation_change _).run

end Sys2Proof.Machine
end

section
/-! SUPPORT. What one step is: a run of changes, or one of the few events that leave an invariant for a moment, each with the run of
changes that follows its first state. -/

namespace Sys2Proof.Machine

open Sys2Proof.Safety
open Relation (ReflTransGen)

/-! ## The events that are more than a run of changes -/

theorem LoopPort.rest_state {l m : LoopPort} (h : l.rest = m.rest) : l.state = m.state := by
  have := congrArg LoopPort.state h
  exact this

theorem queueWaitingClaim_state (s : State) : s.queueWaitingClaim.loop.state = s.loop.state := by
  unfold State.queueWaitingClaim
  split
  · exact (LoopPort.rest_state (pushControl_kept (s.setLoop { s.loop with claimWaiting := false }) .claim).loopRest).trans rfl
  · rfl

theorem Demands.loopState {s t : State} (h : Demands s t) : t.loop.state = s.loop.state :=
  LoopPort.rest_state (Demands.keeps h).loopRest

/-- The break position and the cut set are replaced (R20, R21). -/
def State.newCut (s : State) : State :=
  s.setLoop { s.loop with breakPos := some s.breakPosition, cutSet := s.cutSetAt s.breakPosition }

/-- The breakers that are not yet cut have been handed to the Trip Dispatcher (R21). -/
def State.handedOver (s : State) : State :=
  ((s.cutSetAt s.breakPosition).filter fun b => !s.isCut b).foldl State.enterCut s.newCut

theorem recomputeCut_eq (s : State) :
    s.recomputeCut = (s.cutSetAt s.breakPosition).foldl State.withdrawTrip s.handedOver := rfl

theorem handedOver_byDemands (s : State) : Demands s.newCut s.handedOver := demands_foldl enterCut_byDemands _ _

theorem recomputeCut_loopRest (s : State) : s.recomputeCut.loop.rest = s.newCut.loop.rest :=
  (keeps_foldl KeptByOrders.refl KeptByOrders.trans withdrawTrip_kept _ _).loopRest.trans
    (Demands.keeps (handedOver_byDemands s)).loopRest

theorem recomputeCut_loopState (s : State) : s.recomputeCut.loop.state = s.loop.state :=
  (LoopPort.rest_state (recomputeCut_loopRest s)).trans rfl

/-- The Loop Port in OPEN before its break position is computed: the first steps of R16, with the room told of (R22). -/
def State.opening (s : State) : State := (s.setLoop s.loop.toOpen).tellControlRoom

theorem opening_open (s : State) : s.opening.loop.state = .loopOpen :=
  (Demands.loopState (queueHeldTests_byDemands _)).trans (queueWaitingClaim_state _)

theorem opening_byChanges (s : State) : Changes (s.setLoop s.loop.toOpen) s.opening := tellControlRoom_byChanges _

/-- An entry to OPEN once its break position is computed: the LOOP_STATE record and the BEACON frame (R16). -/
def State.opened (s : State) (c : OpenCause) : State :=
  (s.opening.recomputeCut.record (s.opening.recomputeCut.loopStateRecord c)).queueOrSkip .beacon

theorem opened_byDemands (s : State) (c : OpenCause) : Demands s.opening.recomputeCut (s.opened c) :=
  (record_aside _ _).demands.trans (queueOrSkip_byDemands _ (by exact nofun))

theorem opened_open (s : State) (c : OpenCause) : (s.opened c).loop.state = .loopOpen :=
  (Demands.loopState (opened_byDemands s c)).trans ((recomputeCut_loopState _).trans (opening_open s))

theorem opened_byChanges (s : State) (c : OpenCause) : Changes (s.setLoop s.loop.toOpen) (s.opened c) :=
  ((opening_byChanges s).tail (.recut (opening_open s))).trans (Demands.changes (opened_byDemands s c))

theorem enterOpen_eq (s : State) (c : OpenCause) :
    s.enterOpen c = (s.opened c).setLoop { (s.opened c).loop with beaconTimer := .running Config.beaconTime } := rfl

/-- The beacon timer starts in OPEN (R16). -/
theorem enterOpen_change (s : State) (c : OpenCause) : Change (s.opened c) (s.enterOpen c) :=
  .retimed (s.opened c).loop.result (.inl rfl) (.inl rfl) (.inr ⟨rfl, .inr (opened_open s c)⟩)

/-- A live state of a node has been set, and its record made: the state in which the neighbours are told (R30, R32). -/
def State.toldOf (s : State) (n : Nat) (r : NodeRec) (e : RecordBody) : State := (s.setNode n r).record e

theorem tellNeighbours_byChanges {tell : State → State} (h : ∀ s, Demands s (tell s)) (s : State) :
    Changes s (s.tellNeighbours tell) := by
  unfold State.tellNeighbours
  split
  · rename_i isOpen
    have drawn := (draws_aside s).changes
    dsimp only
    split
    · exact (drawn.tail (.recut isOpen)).trans (Demands.changes (h _))
    · exact (drawn.trans (Demands.changes (h _))).tail (.recut ((Demands.loopState (h _)).trans isOpen))
  · exact Demands.changes (h s)

theorem tellNeighbours_nodes {tell : State → State} (h : ∀ s, Demands s (tell s)) (s : State) :
    (s.tellNeighbours tell).nodes = s.nodes := by
  unfold State.tellNeighbours
  split
  · dsimp only
    split
    · exact (Demands.keeps (h _)).nodes.trans (recomputeCut_kept _).nodes
    · exact (recomputeCut_kept _).nodes.trans (Demands.keeps (h _)).nodes
  · exact (Demands.keeps (h s)).nodes

theorem node_lt {s : State} {n : Nat} {r : NodeRec} (h : s.node n = some r) : n < Config.nodeCount := by
  by_contra hn
  unfold State.node at h
  rw [Vector.getElem?_eq_none (by omega)] at h
  cases h

/-- The state in which a node that becomes LIVE is told of, and the one after (R30). -/
def State.livening (s : State) (n : Nat) (r : NodeRec) (seq : Byte) : State :=
  s.toldOf n { r with live := .live, lastSeq := some seq }
    (nodeRecord .nodeLive (if r.live = .stale then .alarm else .notice) n none)

theorem becomeLive_eq (s : State) (n : Nat) (r : NodeRec) (seq : Byte) :
    s.becomeLive n r seq = ((s.livening n r seq).tellNeighbours (State.tellLive n)).setNode n
      ⟨.live, some seq, .running (((s.livening n r seq).tellNeighbours (State.tellLive n)).staleLimit n)⟩ := rfl

theorem livening_live {s : State} {n : Nat} {r : NodeRec} (h : s.node n = some r) (seq : Byte) :
    ((s.livening n r seq).tellNeighbours (State.tellLive n)).nodeLive n = true := by
  have told : ((s.livening n r seq).tellNeighbours (State.tellLive n)).node n =
      some { r with live := .live, lastSeq := some seq } := by
    rw [State.node_congr (tellNeighbours_nodes (tellLive_byDemands n) _)]
    exact (State.node_setNode s n n _).trans (if_pos ⟨rfl, node_lt h⟩)
  unfold State.nodeLive
  rw [told]
  rfl

/-- The last step of R30: the stale timer of the node that is LIVE by then (R39). -/
theorem becomeLive_change {s : State} {n : Nat} {r : NodeRec} (h : s.node n = some r) (seq : Byte) :
    Change ((s.livening n r seq).tellNeighbours (State.tellLive n)) (s.becomeLive n r seq) :=
  .heard seq _ (livening_live h seq)

/-- The state in which a node that has become STALE is told of (R32). -/
def State.staling (s : State) (n : Nat) : State := s.toldOf n ⟨.stale, none, .stopped⟩ (nodeRecord .nodeStale .alarm n none)

theorem staleExpiry_eq {s : State} {n : Nat} {r : NodeRec} (h : s.node n = some r) (live : r.live = .live)
    (due : r.timer.isRunning = true) : s.staleExpiry n = (s.staling n).tellNeighbours (State.tellStale n) := by
  unfold State.staleExpiry
  rw [h]
  exact if_pos ⟨live, due⟩

/-- A hard reset before the CLAIM frame of its CLAIMING is queued (R6, R190). -/
def State.hardBase (s : State) (h : HardReset) (millivolts : Nat) : State :=
  let s := s.readStore
  let low : Bool := millivolts ≤ Config.warningRiseMv
  let s := { s with
    loop := .reset
    pool := .empty
    trip := { s.trip with orders := [], lines := Vector.replicate _ .reset }
    supply := ⟨low, h.cause⟩
    deviceTime := 0
    hardReset := none }
  let s := (s.freshRecords.hardSections).record (resetRecord h.cause)
  if low then s.record supplyLowRecord else s

theorem finishHardReset_eq (s : State) (h : HardReset) (mv : Nat) :
    s.finishHardReset h mv = (s.hardBase h mv).enterClaiming := rfl

/-- A soft reset before the CLAIM frame of its CLAIMING is queued (R26, R177). -/
def State.softBase (s : State) : State :=
  let s : State := { s with
    loop := s.loop.softReset
    agent := s.agent.softReset
    trip := { s.trip with orders := s.trip.orders.map fun (o : Order) => { o with waiting := false } }
    supply := { s.supply with cause := .soft } }
  (s.freshRecords.softSections).record (resetRecord .soft)

theorem performSoftReset_eq (s : State) : s.performSoftReset = s.softBase.enterClaiming := rfl

/-! ## One step -/

theorem outsideReset_holds {I : State → Prop} {f : State → State} (h : ∀ {s}, Up s → I s → I (f s)) {s : State} (i : I s) :
    I (s.outsideReset f) := by
  unfold State.outsideReset
  split
  · exact i
  · rename_i up
    exact h (by simpa using up) i

theorem beginHardReset_resets (s : State) (d : Bool) : (s.beginHardReset d).hardReset ≠ none := by
  unfold State.beginHardReset
  split <;> simp

/-- What an invariant needs to be kept by every step: the changes keep it, and so do the events that are more than changes. -/
structure KeptByStep (I : State → Prop) : Prop where
  queue : ∀ {s : State} (rest : List Instr), I s → I { s with pending := rest }
  change : ∀ {s t : State}, Change s t → I s → I t
  opens : ∀ {s : State} (c : OpenCause), Up s →
    s.loop.claimTimer.isRunning = true ∨ s.loop.supervisionTimer.isRunning = true → I s → I (s.enterOpen c)
  live : ∀ {s : State} {n : Nat} {r : NodeRec} (seq : Byte), s.node n = some r → I s → I (s.becomeLive n r seq)
  stale : ∀ {s : State} {n : Nat} {r : NodeRec}, s.node n = some r → I s →
    I ((s.staling n).tellNeighbours (State.tellStale n))
  swap : ∀ {s : State}, s.agent.state = .validating → s.agent.disturbed = false → I s → I s.swap.endValidation
  softReset : ∀ {s : State}, I s → I s.performSoftReset
  begins : ∀ {s : State} (h : HardReset), Up s → I s →
    I { s with
        hardReset := some h
        loop := { s.loop with sending := none, tripQ := [], controlQ := [], routineQ := [] }
        trip := { s.trip with orders := [], lines := Vector.replicate _ .reset } }
  noted : ∀ {s : State} (h : HardReset), s.hardReset ≠ none → I s → I { s with hardReset := some h }
  ends : ∀ {s : State} (h : HardReset) (mv : Nat), I s → I (s.finishHardReset h mv)
  tick : ∀ {s : State}, Up s → I s → I s.tick

section
variable {I : State → Prop} (k : KeptByStep I)
include k

theorem KeptByStep.changes {s t : State} (h : Changes s t) : I s → I t := by
  intro i
  induction h with
  | refl => exact i
  | tail _ c ih => exact k.change c ih

theorem KeptByStep.demands {s t : State} (h : Demands s t) : I s → I t := k.changes (Demands.changes h)

theorem KeptByStep.nodeFrame {s : State} (kind : NodeKind) (source seq : Byte) (p : List Byte) (i : I s) :
    I (s.nodeFrame kind source seq p) := by
  unfold State.nodeFrame
  split
  · exact i
  · split
    · exact i
    · split
      · exact i
      · rename_i n c _ _ r hr
        unfold State.acceptFrame
        split
        · rename_i live seen
          have isLive : s.nodeLive n = true := by simp [State.nodeLive, hr, live]
          dsimp only
          split
          · exact i
          · exact k.demands (deliver_byDemands _ n _ c) (k.changes (stayLive_byChanges isLive _ _) i)
        · exact k.demands (deliver_byDemands _ n 0 c) (k.live seq hr i)

theorem KeptByStep.inFrame {s : State} (kind : NodeKind) (source seq : Byte) (p : List Byte)
    (brings : Nat → Nat → Contents → Bool) (i : I s) : I (s.inFrame kind source seq p brings) := by
  rcases inFrame_cases s kind source seq p brings with h | h <;> rw [h]
  · exact k.nodeFrame kind source seq p i
  · exact i

theorem KeptByStep.goodFrame {s : State} (f : Frame) (i : I s) : I (s.goodFrame f) := by
  unfold State.goodFrame
  split
  · split
    · exact k.changes (supervisionReturns_byChanges s) i
    · exact k.changes (beaconReturns_byChanges s) i
    · exact k.changes (claimReturns_byChanges s _ _) i
    · exact i
  · split
    · exact i
    · split
      · exact k.nodeFrame _ _ _ _ i
      · exact k.nodeFrame _ _ _ _ i
      · exact k.nodeFrame _ _ _ _ i
      · exact k.changes (requestFrame_byChanges s _ _) i
      · exact i

theorem KeptByStep.receive {s : State} (bytes : List Byte) (i : I s) : I (s.receive bytes) := by
  unfold State.receive
  split
  · exact k.goodFrame _ i
  · exact i

theorem KeptByStep.claimExpiry {s : State} (up : Up s) (i : I s) : I s.claimExpiry := by
  unfold State.claimExpiry
  split
  · exact k.opens _ up (.inl ‹_›) i
  · exact i

theorem KeptByStep.supervisionExpiry {s : State} (up : Up s) (i : I s) : I s.supervisionExpiry := by
  unfold State.supervisionExpiry
  split
  · exact k.opens _ up (.inr ‹_›) i
  · exact i

theorem KeptByStep.staleExpiry {s : State} (n : Nat) (i : I s) : I (s.staleExpiry n) := by
  cases h : s.node n with
  | none =>
    unfold State.staleExpiry
    rw [h]
    exact i
  | some r =>
    by_cases due : r.live = .live ∧ r.timer.isRunning = true
    · rw [staleExpiry_eq h due.1 due.2]
      exact k.stale h i
    · unfold State.staleExpiry
      rw [h]
      dsimp only
      rw [if_neg due]
      exact i

theorem KeptByStep.sendingCompletes {s : State} (i : I s) : I s.sendingCompletes := by
  unfold State.sendingCompletes
  split
  · exact i
  · split
    · exact k.softReset i
    · exact k.changes ((((Change.claimSent s _).run).tail (.startNext _)).trans (settleRoom_byChanges _)) i

theorem KeptByStep.validationCompletes {s : State} (i : I s) : I s.validationCompletes := by
  have ends : ∀ r, Changes s (s.endValidation.respond r) := fun r =>
    (endValidation_change s).run.trans (respond_byChanges _ r)
  unfold State.validationCompletes
  split
  · rename_i validating _
    split
    · exact k.changes (ends _) i
    · rename_i calm
      split
      · exact k.changes (ends _) i
      · exact k.changes (respond_byChanges _ _) (k.swap validating (by simpa using calm) i)
  · exact i

theorem KeptByStep.beginHardReset {s : State} (d : Bool) (i : I s) : I (s.beginHardReset d) := by
  unfold State.beginHardReset
  split
  · rename_i h
    exact k.noted _ (by simp [h]) i
  · exact k.begins _ ‹_› i

theorem KeptByStep.loseRetention {s : State} (i : I s) : I s.loseRetention := by
  unfold State.loseRetention
  dsimp only
  have begun := k.beginHardReset true i
  cases h : (s.beginHardReset true).hardReset with
  | none => exact absurd h (beginHardReset_resets s true)
  | some r => exact k.noted _ (by simp [h]) begun

theorem KeptByStep.endHardReset {s : State} (mv : Nat) (i : I s) : I (s.endHardReset mv) := by
  unfold State.endHardReset
  split
  · split
    · exact k.ends _ mv i
    · exact i
  · exact i

theorem KeptByStep.request {s : State} (source tag code : Byte) (ps : List Byte) (i : I s) :
    I (s.outsideReset fun s => s.takeRequest source tag code (serveCode code source tag ps)) :=
  outsideReset_holds (I := I) (fun _ => k.changes (takeRequest_byChanges source tag code ps _)) i

/-- Every command keeps the invariant. -/
theorem KeptByStep.exec {s t : State} (c : Instr) (h : Machine.exec c s = .next t) (i : I s) : I t := by
  have outside : ∀ {f : State → State}, (∀ {s}, Up s → I s → I (f s)) → I (s.outsideReset f) :=
    fun hf => outsideReset_holds hf i
  cases c <;> cases h
  case frameArrival bytes => exact outside fun _ => k.receive bytes
  case supervision => exact outside fun _ => k.changes (supervisionReturns_byChanges _)
  case beacon => exact outside fun _ => k.changes (beaconReturns_byChanges _)
  case claim seq payload => exact outside fun _ => k.changes (claimReturns_byChanges _ seq payload)
  case claimTimerExpiry => exact outside fun up => k.claimExpiry up
  case supervisionSendTimerExpiry => exact outside fun _ => k.changes (supervisionSendExpiry_byChanges _)
  case supervisionTimerExpiry => exact outside fun up => k.supervisionExpiry up
  case beaconTimerExpiry => exact outside fun _ => k.changes (beaconExpiry_byChanges _)
  case sendingComplete => exact outside fun _ => k.sendingCompletes
  case claimQueuedAtRoom => exact outside fun _ => k.change (.claimQueued _)
  case heldTestFrameQueued => exact outside fun _ => k.demands (queueHeldTests_byDemands _)
  case heldResponseQueued => exact outside fun _ => k.changes (offerHeldResponses_byChanges _ _)
  case lightSample source seq payload => exact outside fun _ => k.nodeFrame .light source seq payload
  case currentSample source seq payload => exact outside fun _ => k.nodeFrame .current source seq payload
  case position source seq payload => exact outside fun _ => k.nodeFrame .breaker source seq payload
  case staleTimerExpiry n => exact outside fun _ => k.staleExpiry n
  case flickerWindowClose e => exact outside fun _ => k.inFrame _ _ _ _ _
  case stretchExpiry e => exact outside fun _ => k.inFrame _ _ _ _ _
  case persistenceTimerExpiry j => exact outside fun _ => k.demands (persistenceExpiry_byDemands _ j)
  case resendTimerExpiry b => exact outside fun _ => k.demands (resendExpiry_byDemands _ b)
  case failureTimerExpiry b => exact outside fun _ => k.demands (failureExpiry_byDemands _ b)
  case minimumPulseTimerExpiry l => exact outside fun _ => k.demands (pulseExpiry_aside _ l).demands
  case startWaitTimerExpiry => exact outside fun _ => k.demands (startWaitExpiry_byDemands _)
  case testWindowComplete => exact outside fun _ => k.demands (testWindowComplete_byDemands _)
  case validationComplete => exact outside fun _ => k.validationCompletes
  case storeWriteComplete agrees => exact outside fun _ => k.demands (storeComplete_byDemands _ agrees)
  case softResetTakesEffect =>
    refine outside fun _ j => ?_
    split
    · exact k.softReset j
    · exact j
  case supplyWarningFall => exact outside fun _ => k.demands (warningFall_byDemands _)
  case supplyWarningRise => exact outside fun _ => k.demands (warningRise_byDemands _)
  case supplyDipReset => exact k.beginHardReset true i
  case resetnLow => exact k.beginHardReset false i
  case hardResetEnd mv => exact k.endHardReset mv i
  case supplyBelowRetention => exact k.loseRetention i
  case readStatus source tag ps => exact k.request source tag 0x01 ps i
  case readEvents source tag ps => exact k.request source tag 0x02 ps i
  case readChannel source tag ps => exact k.request source tag 0x03 ps i
  case readOrders source tag ps => exact k.request source tag 0x04 ps i
  case readTable source tag ps => exact k.request source tag 0x05 ps i
  case writeShadow source tag ps => exact k.request source tag 0x10 ps i
  case discardShadow source tag ps => exact k.request source tag 0x11 ps i
  case activate source tag ps => exact k.request source tag 0x12 ps i
  case release source tag ps => exact k.request source tag 0x20 ps i
  case setMaintenance source tag ps => exact k.request source tag 0x21 ps i
  case setBlockOn source tag sect => exact k.request source tag 0x22 [sect, 1] i
  case setBlockOff source tag sect => exact k.request source tag 0x22 [sect, 0] i
  case testLens source tag ps => exact k.request source tag 0x23 ps i
  case reclaim source tag ps => exact k.request source tag 0x30 ps i
  case softReset source tag ps => exact k.request source tag 0x31 ps i
  case unknownRequestCode source tag code ps => exact k.request source tag code ps i

/-- Every step keeps the invariant. -/
theorem KeptByStep.step {s t : State} (h : Machine.step s = .next t) (i : I s) : I t := by
  unfold Machine.step at h
  split at h
  · exact k.exec _ h (k.queue _ i)
  · split at h
    · exact k.exec _ h i
    · cases h
      by_cases up : Up s
      · exact k.tick up i
      · unfold State.tick
        rw [if_pos (Option.isSome_iff_ne_none.2 up)]
        exact i

end

end Sys2Proof.Machine
end

section
/-! SUPPORT. The rules for an invariant that every change keeps, and the transmit queues (R22, R23). -/

namespace Sys2Proof.Machine

open Sys2Proof.Safety
open Relation (ReflTransGen)

/-! ## Invariants that every change keeps -/

/-- What an invariant that every change keeps needs besides: the first states of the events that are more than changes. -/
structure KeptByChanges (I : State → Prop) : Prop where
  change : ∀ {s t : State}, Change s t → I s → I t
  queue : ∀ {s : State} (rest : List Instr), I s → I { s with pending := rest }
  opens : ∀ {s : State}, Up s → s.loop.claimTimer.isRunning = true ∨ s.loop.supervisionTimer.isRunning = true → I s →
    I (s.setLoop s.loop.toOpen)
  livening : ∀ {s : State} {n : Nat} {r : NodeRec} (seq : Byte), s.node n = some r → I s → I (s.livening n r seq)
  staling : ∀ {s : State} (n : Nat), I s → I (s.staling n)
  newTables : ∀ {s : State}, s.agent.state = .validating → s.agent.disturbed = false → I s → I s.newTables
  softBase : ∀ {s : State}, I s → I (s.softBase.setLoop s.softBase.loop.toClaiming)
  hardBase : ∀ {s : State} (h : HardReset) (mv : Nat), I s → I ((s.hardBase h mv).setLoop (s.hardBase h mv).loop.toClaiming)
  begins : ∀ {s : State} (h : HardReset), Up s → I s →
    I { s with
        hardReset := some h
        loop := { s.loop with sending := none, tripQ := [], controlQ := [], routineQ := [] }
        trip := { s.trip with orders := [], lines := Vector.replicate _ .reset } }
  noted : ∀ {s : State} (h : HardReset), s.hardReset ≠ none → I s → I { s with hardReset := some h }
  tick : ∀ {s : State}, Up s → I s → I s.tick

theorem KeptByChanges.run {I : State → Prop} (k : KeptByChanges I) {s t : State} (h : Changes s t) : I s → I t := by
  intro i
  induction h with
  | refl => exact i
  | tail _ c ih => exact k.change c ih

theorem KeptByChanges.byStep {I : State → Prop} (k : KeptByChanges I) : KeptByStep I where
  queue := k.queue
  change := k.change
  opens c up running i := k.change (enterOpen_change _ c) (k.run (opened_byChanges _ c) (k.opens up running i))
  live seq hr i := k.change (becomeLive_change hr seq)
    (k.run (tellNeighbours_byChanges (tellLive_byDemands _) _) (k.livening seq hr i))
  stale _ i := k.run (tellNeighbours_byChanges (tellStale_byDemands _) _) (k.staling _ i)
  swap {s} v d i := by
    rw [swap_eq]
    exact k.run (swapEnds_byChanges _) (k.run (loopActivation_byChanges _) (k.newTables v d i))
  softReset i := k.change (.claimQueued _) (k.softBase i)
  begins := k.begins
  noted := k.noted
  ends h mv i := k.change (.claimQueued _) (k.hardBase h mv i)
  tick := k.tick

/-! ## The first states read back -/

/-- The Loop Port at the entry to CLAIMING that ends a hard reset (R6, R7). -/
theorem hardBase_loop (s : State) (h : HardReset) (mv : Nat) : (s.hardBase h mv).loop = .reset := by
  unfold State.hardBase
  dsimp only
  split <;> rfl

theorem hardBase_orders (s : State) (h : HardReset) (mv : Nat) : (s.hardBase h mv).trip.orders = [] := by
  unfold State.hardBase
  dsimp only
  split <;> rfl

theorem softBase_loop (s : State) : s.softBase.loop = s.loop.softReset := rfl

theorem softBase_orders (s : State) :
    s.softBase.trip.orders = s.trip.orders.map fun (o : Order) => { o with waiting := false } := rfl

theorem newTables_loop (s : State) : s.newTables.loop = s.loop := by
  simp only [State.newTables, State.record_loop, State.carryNodes, State.carryChannels, State.carryPoints, State.carryBreakers]

theorem newTables_orders (s : State) : s.newTables.trip.orders = s.trip.orders := by
  simp only [State.newTables, State.record_trip, State.carryNodes, State.carryChannels, State.carryPoints, State.carryBreakers]

theorem newTables_hardReset (s : State) : s.newTables.hardReset = s.hardReset := by
  simp only [State.newTables, State.record_hardReset, State.carryNodes, State.carryChannels, State.carryPoints, State.carryBreakers]

theorem tick_loop {s : State} (up : Up s) : s.tick.loop = { s.loop with
    sendTimer := s.loop.sendTimer.tick
    supervisionTimer := s.loop.supervisionTimer.tick
    beaconTimer := s.loop.beaconTimer.tick
    claimTimer := s.loop.claimTimer.tick } := by
  unfold State.tick
  rw [if_neg (by simp [up])]

theorem tick_orders {s : State} (up : Up s) : s.tick.trip.orders = s.trip.orders.map Order.tick := by
  unfold State.tick
  rw [if_neg (by simp [up])]

theorem tick_hardReset {s : State} (up : Up s) : s.tick.hardReset = s.hardReset := by
  unfold State.tick
  rw [if_neg (by simp [up])]

/-! ## The Loop Port under each operation -/

theorem disturb_loop (s : State) : s.disturb.loop = s.loop := (disturb_same s).1

/-! ## The transmit queues (R22, R23) -/

/-- Every transmit queue is within its capacity (R22). -/
abbrev LoopPort.WithinCapacity (l : LoopPort) : Prop :=
  l.tripQ.length ≤ Config.tripCapacity ∧ l.controlQ.length ≤ Config.controlCapacity ∧
    l.routineQ.length ≤ Config.routineCapacity

theorem queues_withinCapacity {s : State} (h : QueuesBounded s) : s.loop.WithinCapacity := ⟨h.1, h.2.1, h.2.2.1⟩

/-- The queues and the frame being sent decide. -/
theorem queuesBounded_congr {s t : State} (trip : t.loop.tripQ = s.loop.tripQ) (control : t.loop.controlQ = s.loop.controlQ)
    (routine : t.loop.routineQ = s.loop.routineQ) (sending : t.loop.sending = s.loop.sending) (h : QueuesBounded s) :
    QueuesBounded t := by
  unfold QueuesBounded
  rw [trip, control, routine, sending]
  exact h

theorem queuesBounded_of_loop {s t : State} (h : t.loop = s.loop) : QueuesBounded s → QueuesBounded t :=
  queuesBounded_congr (by rw [h]) (by rw [h]) (by rw [h]) (by rw [h])

theorem length_tail_le {α : Type} {x : α} {queue rest : List α} {n : Nat} (h : queue = x :: rest) (fits : queue.length ≤ n) :
    rest.length ≤ n := by
  rw [h] at fits
  exact Nat.le_of_succ_le fits

theorem startNext_bounded {s : State} (h : s.loop.WithinCapacity) : QueuesBounded s.startNext := by
  obtain ⟨trip, control, routine⟩ := h
  unfold State.startNext
  split
  case h_1 head => exact ⟨length_tail_le head trip, control, routine, nofun⟩
  case h_2 _ head => exact ⟨trip, length_tail_le head control, routine, nofun⟩
  case h_3 _ head => exact ⟨trip, length_tail_le head control, routine, nofun⟩
  case h_4 _ _ head => exact ⟨trip, control, length_tail_le head routine, nofun⟩
  case h_5 noTrip noControl noRoutine => exact ⟨trip, control, routine, fun _ => ⟨noTrip, noControl, noRoutine⟩⟩

theorem startIfIdle_bounded {s : State} (h : s.loop.WithinCapacity) : QueuesBounded s.startIfIdle := by
  unfold State.startIfIdle
  split
  · exact startNext_bounded h
  · exact ⟨h.1, h.2.1, h.2.2, fun e => absurd e ‹_›⟩

theorem pushControl_bounded {s : State} (h : QueuesBounded s) (room : s.controlRoom = true) (f : ControlFrame) :
    QueuesBounded (s.pushControl f) := by
  obtain ⟨trip, control, routine⟩ := queues_withinCapacity h
  refine startIfIdle_bounded ⟨trip, ?_, routine⟩
  simpa [State.controlRoom] using room

theorem pushTrip_bounded {s : State} (h : QueuesBounded s) (room : s.tripRoom = true) (f : TripFrame) :
    QueuesBounded (s.pushTrip f) := by
  obtain ⟨trip, control, routine⟩ := queues_withinCapacity h
  refine startIfIdle_bounded ⟨?_, control, routine⟩
  simpa [State.tripRoom] using room

theorem pushRoutine_bounded {s : State} (h : QueuesBounded s) (room : s.routineRoom = true) (r : Response) :
    QueuesBounded (s.pushRoutine r) := by
  obtain ⟨trip, control, routine⟩ := queues_withinCapacity h
  refine startIfIdle_bounded ⟨trip, control, ?_⟩
  simpa [State.routineRoom] using room

theorem attemptSend_bounded {s : State} (h : QueuesBounded s) (b : Nat) : QueuesBounded (s.attemptSend b) := by
  unfold State.attemptSend
  split
  · split
    · rename_i sends
      simp only [Bool.and_eq_true] at sends
      exact pushTrip_bounded (s := s.updateOrder b _) h sends.2 _
    · exact h
  · exact h

/-- Frames are withdrawn from the TRIP and the CONTROL queue (R7, R16, R25). -/
theorem withdrawn_bounded {s t : State} (h : QueuesBounded s) (trip : t.loop.tripQ.Sublist s.loop.tripQ)
    (control : t.loop.controlQ.Sublist s.loop.controlQ) (routine : t.loop.routineQ = s.loop.routineQ)
    (sending : t.loop.sending = s.loop.sending) : QueuesBounded t := by
  obtain ⟨h₁, h₂, h₃, idle⟩ := h
  refine ⟨trip.length_le.trans h₁, control.length_le.trans h₂, routine ▸ h₃, fun e => ?_⟩
  obtain ⟨i₁, i₂, i₃⟩ := idle (sending ▸ e)
  exact ⟨List.sublist_nil.1 (i₁ ▸ trip), List.sublist_nil.1 (i₂ ▸ control), routine.trans i₃⟩

theorem withdrawTrip_bounded {s : State} (h : QueuesBounded s) (b : Nat) : QueuesBounded (s.withdrawTrip b) :=
  withdrawn_bounded h List.filter_sublist (List.Sublist.refl _) rfl rfl

theorem Part.bounded {s t : State} (h : Part s t) (i : QueuesBounded s) : QueuesBounded t := by
  cases h with
  | aside h => exact queuesBounded_of_loop h.loop i
  | amend ho ha => exact i
  | append c d ho hp => exact queuesBounded_of_loop (disturb_loop _) i
  | renew left ho => exact i
  | send b => exact attemptSend_bounded i b
  | withdraw b => exact withdrawTrip_bounded i b
  | remove b => exact withdrawTrip_bounded (s := s.setOrders _) i b
  | control room hf => exact pushControl_bounded i room _
  | cut p set h => exact i

theorem Parts.bounded {s t : State} (h : Parts s t) (i : QueuesBounded s) : QueuesBounded t := by
  induction h with
  | refl => exact i
  | tail _ p ih => exact p.bounded ih

theorem queueWaitingClaim_bounded {s : State} (i : QueuesBounded s) : QueuesBounded s.queueWaitingClaim := by
  unfold State.queueWaitingClaim
  split
  · rename_i h
    rw [Bool.and_eq_true] at h
    exact pushControl_bounded (s := s.setLoop { s.loop with claimWaiting := false }) i h.2 .claim
  · exact i

theorem Change.bounded {s t : State} (h : Change s t) (i : QueuesBounded s) : QueuesBounded t := by
  cases h with
  | demand h => exact Parts.bounded h.parts i
  | heard seq left h => exact i
  | recut h => exact Parts.bounded (recomputeCut_byParts h) i
  | claiming => exact withdrawn_bounded i (List.Sublist.refl _) List.filter_sublist rfl rfl
  | claimQueued => exact queueWaitingClaim_bounded i
  | response r room => exact pushRoutine_bounded i room r
  | retimed result hs hv hb => exact i
  | claimSent x =>
    unfold State.claimSent
    split <;> exact i
  | startNext => exact startNext_bounded (queues_withinCapacity i)
  | closed list result hs ho => exact i
  | exchange h => exact queuesBounded_of_loop h.loop i

theorem queuesBounded_keptByChanges : KeptByChanges QueuesBounded where
  change := Change.bounded
  queue _ i := i
  opens _ _ i := withdrawn_bounded i (List.Sublist.refl _) List.filter_sublist rfl rfl
  livening _ _ i := i
  staling _ i := i
  newTables _ _ i := queuesBounded_of_loop (newTables_loop _) i
  softBase _ := ⟨Nat.zero_le _, Nat.zero_le _, Nat.zero_le _, fun _ => ⟨rfl, rfl, rfl⟩⟩
  hardBase {s} h mv _ := by
    rw [hardBase_loop]
    exact ⟨Nat.zero_le _, Nat.zero_le _, Nat.zero_le _, fun _ => ⟨rfl, rfl, rfl⟩⟩
  begins _ _ _ := ⟨Nat.zero_le _, Nat.zero_le _, Nat.zero_le _, fun _ => ⟨rfl, rfl, rfl⟩⟩
  noted _ _ i := i
  tick up i := by
    have loop := tick_loop up
    exact queuesBounded_congr (by rw [loop]) (by rw [loop]) (by rw [loop]) (by rw [loop]) i

/-- Settles O51: every change keeps the queues within their capacities and an idle output empty, and so does every event. -/
theorem stepKeepsQueuesBounded : Obligations.stepKeepsQueuesBounded := by
  unfold Obligations.stepKeepsQueuesBounded
  exact fun s t i h => queuesBounded_keptByChanges.byStep.step h i

end Sys2Proof.Machine
end

section
/-! SUPPORT. One order on a breaker (R108), and the waiting copies of the orders in agreement with the TRIP queue (R22, R23, R25, R114). -/

namespace Sys2Proof.Machine

open Sys2Proof.Safety
open Relation (ReflTransGen)

/-! ## The breakers of the orders under each operation -/

/-- The breakers that have an order, in order of creation. -/
abbrev State.ordered (s : State) : List Nat := s.trip.orders.map Order.breaker

theorem ordered_congr {s t : State} (h : t.trip.orders = s.trip.orders) : t.ordered = s.ordered :=
  congrArg (List.map Order.breaker) h

theorem setLoop_ordered (s : State) (l : LoopPort) : (s.setLoop l).ordered = s.ordered := rfl

theorem clearWaiting_ordered (s : State) (b : Nat) : (s.clearWaiting b).ordered = s.ordered :=
  breakers_updateOrder s b (fun o => { o with waiting := false }) fun _ => rfl

theorem startNext_ordered (s : State) : s.startNext.ordered = s.ordered := by
  rcases startNext_orders s with h | ⟨f, _, _, h⟩
  · exact ordered_congr h
  · exact (ordered_congr h).trans (clearWaiting_ordered s _)

theorem startIfIdle_ordered (s : State) : s.startIfIdle.ordered = s.ordered := by
  unfold State.startIfIdle
  split
  · exact startNext_ordered s
  · rfl

theorem pushControl_ordered (s : State) (f : ControlFrame) : (s.pushControl f).ordered = s.ordered := startIfIdle_ordered _
theorem pushRoutine_ordered (s : State) (r : Response) : (s.pushRoutine r).ordered = s.ordered := startIfIdle_ordered _
theorem pushTrip_ordered (s : State) (f : TripFrame) : (s.pushTrip f).ordered = s.ordered := startIfIdle_ordered _

theorem attemptSend_ordered (s : State) (b : Nat) : (s.attemptSend b).ordered = s.ordered := by
  unfold State.attemptSend
  split
  · split
    · exact (pushTrip_ordered _ _).trans (breakers_updateOrder s b (fun o => { o with waiting := true }) fun _ => rfl)
    · rfl
  · rfl

theorem withdrawTrip_ordered (s : State) (b : Nat) : (s.withdrawTrip b).ordered = s.ordered := clearWaiting_ordered _ b

theorem appendOrder_orders (s : State) (b : Nat) (p : Position) (c : SectionSet) (d : Nat) :
    (s.appendOrder b p c d).trip.orders = s.trip.orders ++ [s.newOrder b p c d] := disturb_orders _

theorem appendOrder_ordered (s : State) (b : Nat) (p : Position) (c : SectionSet) (d : Nat) :
    (s.appendOrder b p c d).ordered = s.ordered ++ [b] := by
  unfold State.ordered
  rw [appendOrder_orders, List.map_append, List.map_singleton, (newOrder_fields s b p c d).1]

theorem mem_ordered_iff (s : State) (b : Nat) : b ∈ s.ordered ↔ s.order b ≠ none := by
  simp [State.ordered, State.order]

/-! ## At most one order on a breaker (R108) -/

theorem oneOrder_iff (s : State) : OneOrderPerBreaker s ↔ s.ordered.Nodup ∧ ∀ b ∈ s.ordered, b < Config.breakerCount := by
  simp [OneOrderPerBreaker, State.ordered]

theorem oneOrder_of_sublist {s t : State} (h : t.ordered.Sublist s.ordered) : OneOrderPerBreaker s → OneOrderPerBreaker t := by
  rw [oneOrder_iff, oneOrder_iff]
  exact fun ⟨once, known⟩ => ⟨once.sublist h, fun b hb => known b (h.subset hb)⟩

theorem oneOrder_of_ordered {s t : State} (h : t.ordered = s.ordered) : OneOrderPerBreaker s → OneOrderPerBreaker t :=
  oneOrder_of_sublist (h ▸ List.Sublist.refl _)

/-- The order that the list finds on a breaker is the only one there. -/
theorem order_unique {s : State} (h : OneOrderPerBreaker s) {b : Nat} {o p : Order} (ho : s.order b = some o)
    (hp : p ∈ s.trip.orders) (e : p.breaker = b) : p = o :=
  List.inj_on_of_nodup_map h.1 hp (order_mem ho) (e.trans (order_breaker ho).symm)

theorem order_of_mem {s : State} (h : OneOrderPerBreaker s) {o : Order} (ho : o ∈ s.trip.orders) :
    s.order o.breaker = some o := by
  cases e : s.order o.breaker with
  | none => exact absurd e ((mem_ordered_iff s _).1 (List.mem_map_of_mem ho))
  | some p => rw [order_unique h e ho rfl]

theorem position_lt {s : State} {b : Nat} {p : Position} (h : s.position b = some p) : b < Config.breakerCount := by
  by_contra hb
  unfold State.position at h
  rw [Vector.getElem?_eq_none (by omega)] at h
  cases h

theorem Part.oneOrder {s t : State} (h : Part s t) (i : OneOrderPerBreaker s) : OneOrderPerBreaker t := by
  cases h with
  | aside h => exact oneOrder_of_ordered (ordered_congr h.orders) i
  | amend ho ha => exact oneOrder_of_ordered (breakers_updateOrder s _ _ ha.breaker) i
  | @append b p c d ho hp =>
    rw [oneOrder_iff] at i ⊢
    obtain ⟨once, known⟩ := i
    have new : b ∉ s.ordered := fun hb => (mem_ordered_iff s b).1 hb ho
    rw [appendOrder_ordered]
    refine ⟨List.nodup_append.2 ⟨once, List.nodup_singleton b, fun x hx y hy e => ?_⟩, fun x hx => ?_⟩
    · exact new (List.mem_singleton.1 hy ▸ e ▸ hx)
    · rcases List.mem_append.1 hx with hx | hx
      · exact known x hx
      · exact List.mem_singleton.1 hx ▸ position_lt hp
  | renew left ho =>
    exact oneOrder_of_ordered (breakers_updateOrder s _ (fun o => { o with
      state := .issued, failure := .running left, resend := .running Config.resendTime }) fun _ => rfl) i
  | send b => exact oneOrder_of_ordered (attemptSend_ordered s b) i
  | withdraw b => exact oneOrder_of_ordered (withdrawTrip_ordered s b) i
  | remove b =>
    refine oneOrder_of_sublist ?_ i
    rw [withdrawTrip_ordered]
    exact List.filter_sublist.map Order.breaker
  | control room hf => exact oneOrder_of_ordered (pushControl_ordered s _) i
  | cut p set h => exact i

theorem Parts.oneOrder {s t : State} (h : Parts s t) (i : OneOrderPerBreaker s) : OneOrderPerBreaker t := by
  induction h with
  | refl => exact i
  | tail _ p ih => exact p.oneOrder ih

theorem Demands.oneOrder {s t : State} (h : Demands s t) : OneOrderPerBreaker s → OneOrderPerBreaker t := Parts.oneOrder (Demands.parts h)

theorem queueWaitingClaim_ordered (s : State) : s.queueWaitingClaim.ordered = s.ordered := by
  unfold State.queueWaitingClaim
  split
  · exact pushControl_ordered _ _
  · rfl

theorem Change.oneOrder {s t : State} (h : Change s t) (i : OneOrderPerBreaker s) : OneOrderPerBreaker t := by
  cases h with
  | demand h => exact Parts.oneOrder h.parts i
  | heard seq left h => exact i
  | recut h => exact Parts.oneOrder (recomputeCut_byParts h) i
  | claiming => exact i
  | claimQueued => exact oneOrder_of_ordered (queueWaitingClaim_ordered s) i
  | response r room => exact oneOrder_of_ordered (pushRoutine_ordered s r) i
  | retimed result hs hv hb => exact i
  | claimSent x =>
    unfold State.claimSent
    split <;> exact i
  | startNext => exact oneOrder_of_ordered (startNext_ordered s) i
  | closed list result hs ho => exact i
  | exchange h => exact oneOrder_of_ordered (congrArg (fun t => t.orders.map Order.breaker) h.trip) i

theorem oneOrder_of_none {s : State} (h : s.trip.orders = []) : OneOrderPerBreaker s := by
  simp [OneOrderPerBreaker, h]

theorem tick_ordered {s : State} (up : Up s) : s.tick.ordered = s.ordered := by
  unfold State.ordered
  rw [tick_orders up, List.map_map]
  rfl

theorem softBase_ordered (s : State) : s.softBase.ordered = s.ordered := by
  unfold State.ordered
  rw [softBase_orders, List.map_map]
  rfl

theorem oneOrder_keptByChanges : KeptByChanges OneOrderPerBreaker where
  change := Change.oneOrder
  queue _ i := i
  opens _ _ i := i
  livening _ _ i := i
  staling _ i := i
  newTables {s} _ _ i := oneOrder_of_ordered (ordered_congr (newTables_orders s)) i
  softBase {s} i := oneOrder_of_ordered ((setLoop_ordered _ _).trans (softBase_ordered s)) i
  hardBase {s} h mv _ := oneOrder_of_none ((congrArg TripDispatcher.orders (State.setLoop_trip _ _)).trans (hardBase_orders s h mv))
  begins _ _ _ := oneOrder_of_none rfl
  noted _ _ i := i
  tick up i := oneOrder_of_ordered (tick_ordered up) i

/-! ## Waiting copies (R22, R23, R25, R114) -/

/-- The order on a breaker has a waiting copy (R114). -/
def State.waits (s : State) (b : Nat) : Prop := ∃ o ∈ s.trip.orders, o.breaker = b ∧ o.waiting = true

/-- The breakers of the TRIP frames in the queue. -/
abbrev State.queued (s : State) : List Nat := s.loop.tripQ.map TripFrame.breaker

theorem waitingCopies_iff (s : State) : WaitingCopies s ↔ s.queued.Nodup ∧ ∀ b, b ∈ s.queued ↔ s.waits b := Iff.rfl

theorem waitingCopies_congr {s t : State} (queue : t.loop.tripQ = s.loop.tripQ) (waits : ∀ b, t.waits b ↔ s.waits b)
    (h : WaitingCopies s) : WaitingCopies t := by
  rw [waitingCopies_iff] at h ⊢
  unfold State.queued
  rw [queue]
  exact ⟨h.1, fun b => (h.2 b).trans (waits b).symm⟩

theorem waits_congr {s t : State} (h : t.trip.orders = s.trip.orders) (b : Nat) : t.waits b ↔ s.waits b := by
  unfold State.waits
  rw [h]

theorem waits_setLoop (s : State) (l : LoopPort) (b : Nat) : (s.setLoop l).waits b ↔ s.waits b := Iff.rfl

theorem waits_updateOrder (s : State) (b c : Nat) (f : Order → Order) (hf : ∀ o, (f o).breaker = o.breaker) :
    (s.updateOrder b f).waits c ↔
      ∃ o ∈ s.trip.orders, o.breaker = c ∧ (if c = b then (f o).waiting else o.waiting) = true := by
  unfold State.waits
  simp only [State.updateOrder_orders, List.mem_map, exists_exists_and_eq_and]
  refine exists_congr fun o => and_congr_right fun _ => ?_
  by_cases h : o.breaker = b
  · rw [if_pos h, hf]
    exact and_congr_right fun e => by rw [if_pos (e.symm.trans h)]
  · rw [if_neg h]
    exact and_congr_right fun e => by rw [if_neg fun k => h (e.trans k)]

/-- A change that keeps breakers and waiting copies. -/
theorem waits_updateOrder_same (s : State) (b c : Nat) (f : Order → Order) (hf : ∀ o, (f o).breaker = o.breaker)
    (hw : ∀ o, (f o).waiting = o.waiting) : (s.updateOrder b f).waits c ↔ s.waits c := by
  rw [waits_updateOrder s b c f hf]
  simp only [hw, ite_self]
  rfl

theorem waits_clearWaiting (s : State) (b c : Nat) : (s.clearWaiting b).waits c ↔ c ≠ b ∧ s.waits c := by
  unfold State.clearWaiting
  rw [waits_updateOrder s b c (fun o => { o with waiting := false }) fun _ => rfl]
  by_cases h : c = b <;> simp [h, State.waits]

theorem startNext_waitingCopies {s : State} (h : WaitingCopies s) : WaitingCopies s.startNext := by
  unfold State.startNext
  split
  · rename_i f rest e
    rw [waitingCopies_iff] at h ⊢
    have queued : s.queued = f.breaker :: rest.map TripFrame.breaker := congrArg _ e
    rw [queued, List.nodup_cons] at h
    obtain ⟨⟨once, nodup⟩, agree⟩ := h
    refine ⟨nodup, fun c => ?_⟩
    rw [waits_clearWaiting]
    have : c ∈ f.breaker :: rest.map TripFrame.breaker ↔ s.waits c := agree c
    constructor
    · intro hc
      exact ⟨fun e => once (e ▸ hc), this.1 (List.mem_cons_of_mem _ hc)⟩
    · rintro ⟨ne, waits⟩
      exact (List.mem_cons.1 (this.2 waits)).resolve_left ne
  all_goals exact h

theorem startIfIdle_waitingCopies {s : State} (h : WaitingCopies s) : WaitingCopies s.startIfIdle := by
  unfold State.startIfIdle
  split
  · exact startNext_waitingCopies h
  · exact h

theorem attemptSend_waitingCopies {s : State} (one : OneOrderPerBreaker s) (h : WaitingCopies s) (b : Nat) :
    WaitingCopies (s.attemptSend b) := by
  unfold State.attemptSend
  split
  · rename_i o n ho _
    split
    · rename_i sends
      simp only [Bool.and_eq_true, Bool.not_eq_true'] at sends
      obtain ⟨⟨-, notWaiting⟩, -⟩ := sends
      have idle : ¬ s.waits b := by
        rintro ⟨p, hp, e, waiting⟩
        rw [order_unique one ho hp e, notWaiting] at waiting
        cases waiting
      refine startIfIdle_waitingCopies ?_
      rw [waitingCopies_iff] at h ⊢
      obtain ⟨nodup, agree⟩ := h
      have queued : (s.loop.tripQ ++ [s.tripFrame o n]).map TripFrame.breaker = s.queued ++ [b] := by
        rw [List.map_append, List.map_singleton, show (s.tripFrame o n).breaker = b from order_breaker ho]
      unfold State.queued at *
      simp only [State.setLoop_loop, State.updateOrder_loop]
      rw [queued]
      refine ⟨List.nodup_append.2 ⟨nodup, List.nodup_singleton b, fun x hx y hy e => ?_⟩, fun c => ?_⟩
      · exact idle ((agree b).1 (List.mem_singleton.1 hy ▸ e ▸ hx))
      · rw [waits_setLoop, waits_updateOrder s b c (fun o => { o with waiting := true }) fun _ => rfl, List.mem_append, agree c,
          List.mem_singleton]
        by_cases e : c = b
        · subst e
          simpa using ⟨o, order_mem ho, order_breaker ho⟩
        · simp [e, State.waits]
    · exact h
  · exact h

theorem withdrawTrip_waitingCopies {s : State} (h : WaitingCopies s) (b : Nat) : WaitingCopies (s.withdrawTrip b) := by
  rw [waitingCopies_iff] at h ⊢
  obtain ⟨nodup, agree⟩ := h
  have left : (s.withdrawTrip b).queued = s.queued.filter fun c => c ≠ b := by
    unfold State.queued
    rw [List.filter_map]
    rfl
  rw [left]
  refine ⟨nodup.filter _, fun c => ?_⟩
  rw [State.withdrawTrip, waits_clearWaiting, List.mem_filter, agree c, decide_eq_true_iff]
  exact and_comm

theorem remove_waitingCopies {s : State} (h : WaitingCopies s) (b : Nat) :
    WaitingCopies ((s.setOrders (s.trip.orders.filter fun o => o.breaker ≠ b)).withdrawTrip b) := by
  refine waitingCopies_congr (s := s.withdrawTrip b) rfl (fun c => ?_) (withdrawTrip_waitingCopies h b)
  unfold State.withdrawTrip
  rw [waits_clearWaiting, waits_clearWaiting]
  refine and_congr_right fun ne => ?_
  unfold State.waits
  simp only [State.setLoop_trip, State.setOrders_orders, List.mem_filter, decide_eq_true_eq, and_assoc]
  refine exists_congr fun o => and_congr_right fun _ => ?_
  exact ⟨fun k => k.2, fun k => ⟨fun e => ne (k.1.symm.trans e), k⟩⟩

theorem Part.waitingCopies {s t : State} (h : Part s t) (one : OneOrderPerBreaker s) (i : WaitingCopies s) : WaitingCopies t := by
  cases h with
  | aside h => exact waitingCopies_congr (by rw [h.loop]) (waits_congr h.orders) i
  | @amend b o f ho ha =>
    exact waitingCopies_congr (s := s) (t := s.updateOrder b f) rfl (fun c => waits_updateOrder_same s b c f ha.breaker ha.waiting) i
  | @append b p c d ho hp =>
    refine waitingCopies_congr (by rw [show (s.appendOrder b p c d).loop = s.loop from disturb_loop _]) (fun x => ?_) i
    have waiting : (s.newOrder b p c d).waiting = false := by
      unfold State.newOrder
      split <;> rfl
    unfold State.waits
    rw [appendOrder_orders]
    simp only [List.mem_append, List.mem_singleton]
    constructor
    · rintro ⟨o, ho | rfl, e, w⟩
      · exact ⟨o, ho, e, w⟩
      · rw [waiting] at w; cases w
    · rintro ⟨o, ho, k⟩
      exact ⟨o, .inl ho, k⟩
  | @renew b o left ho =>
    exact waitingCopies_congr (s := s) (t := s.renewOrder b left) rfl (fun c => waits_updateOrder_same s b c (fun o => { o with
      state := .issued, failure := .running left, resend := .running Config.resendTime }) (fun _ => rfl) fun _ => rfl) i
  | send b => exact attemptSend_waitingCopies one i b
  | withdraw b => exact withdrawTrip_waitingCopies i b
  | remove b => exact remove_waitingCopies i b
  | control room hf => exact startIfIdle_waitingCopies i
  | cut p set h => exact i

/-- The two conditions that every step keeps together. -/
abbrev CopiesAgree (s : State) : Prop := WaitingCopies s ∧ OneOrderPerBreaker s

theorem Parts.copiesAgree {s t : State} (h : Parts s t) (i : CopiesAgree s) : CopiesAgree t := by
  induction h with
  | refl => exact i
  | tail _ p ih => exact ⟨p.waitingCopies ih.2 ih.1, p.oneOrder ih.2⟩

theorem Change.waitingCopies {s t : State} (h : Change s t) (one : OneOrderPerBreaker s) (i : WaitingCopies s) :
    WaitingCopies t := by
  cases h with
  | demand h => exact (Parts.copiesAgree h.parts ⟨i, one⟩).1
  | heard seq left h => exact i
  | recut h => exact (Parts.copiesAgree (recomputeCut_byParts h) ⟨i, one⟩).1
  | claiming => exact i
  | claimQueued =>
    unfold State.queueWaitingClaim
    split
    · exact startIfIdle_waitingCopies i
    · exact i
  | response r room => exact startIfIdle_waitingCopies i
  | retimed result hs hv hb => exact i
  | claimSent x =>
    unfold State.claimSent
    split <;> exact i
  | startNext => exact startNext_waitingCopies i
  | closed list result hs ho => exact i
  | exchange h =>
    exact waitingCopies_congr (congrArg LoopPort.tripQ h.loop) (waits_congr (congrArg TripDispatcher.orders h.trip)) i

theorem waitingCopies_of_none {s : State} (queue : s.loop.tripQ = []) (waits : ∀ b, ¬ s.waits b) : WaitingCopies s := by
  rw [waitingCopies_iff]
  unfold State.queued
  rw [queue]
  exact ⟨List.nodup_nil, fun b => ⟨nofun, fun w => absurd w (waits b)⟩⟩

theorem waitingCopies_keptByChanges : KeptByChanges CopiesAgree where
  change h i := ⟨h.waitingCopies i.2 i.1, h.oneOrder i.2⟩
  queue _ i := i
  opens _ _ i := i
  livening _ _ i := i
  staling _ i := i
  newTables {s} v d i := ⟨waitingCopies_congr (by rw [newTables_loop]) (waits_congr (newTables_orders s)) i.1,
    oneOrder_keptByChanges.newTables v d i.2⟩
  softBase i := by
    refine ⟨waitingCopies_of_none rfl fun b => ?_, oneOrder_keptByChanges.softBase i.2⟩
    rintro ⟨o, ho, -, waiting⟩
    obtain ⟨p, -, rfl⟩ := List.mem_map.1 ho
    cases waiting
  hardBase {s} h mv i := by
    refine ⟨waitingCopies_of_none (by rw [hardBase_loop]; rfl) fun b => ?_, oneOrder_keptByChanges.hardBase h mv i.2⟩
    simp [State.waits, hardBase_orders]
  begins _ _ _ := ⟨waitingCopies_of_none rfl fun b => by simp [State.waits], oneOrder_of_none rfl⟩
  noted _ _ i := i
  tick {s} up i := by
    refine ⟨waitingCopies_congr (by rw [tick_loop up]) (fun b => ?_) i.1, oneOrder_keptByChanges.tick up i.2⟩
    unfold State.waits
    rw [tick_orders up]
    simp [Order.tick]

/-- Settles O57: every operation on the TRIP queue changes the order's waiting copy with it. -/
theorem stepKeepsWaitingCopies : Obligations.stepKeepsWaitingCopies := by
  unfold Obligations.stepKeepsWaitingCopies
  exact fun s t waiting one h => waitingCopies_keptByChanges.byStep.step h ⟨waiting, one⟩

end Sys2Proof.Machine
end

section
/-! SUPPORT. The timers of the orders, the sections and the nodes in their states (R31, R32, R94, R111, R115, R116, R121). -/

namespace Sys2Proof.Machine

open Sys2Proof.Safety
open Relation (ReflTransGen)

@[simp] theorem Timer.isRunning_tick (t : Timer) : t.tick.isRunning = t.isRunning := by
  rcases t with _ | _ | n <;> rfl

/-! ## Orders that stand -/

/-- Every order of `t` stands in `s`, with the same state and timers. -/
def OrdersStand (s t : State) : Prop :=
  ∀ o ∈ t.trip.orders, ∃ p ∈ s.trip.orders,
    p.breaker = o.breaker ∧ p.state = o.state ∧ p.failure = o.failure ∧ p.resend = o.resend

theorem OrdersStand.of_eq {s t : State} (h : t.trip.orders = s.trip.orders) : OrdersStand s t :=
  fun o ho => ⟨o, h ▸ ho, rfl, rfl, rfl, rfl⟩

theorem OrdersStand.refl (s : State) : OrdersStand s s := .of_eq rfl

theorem OrdersStand.trans {s t u : State} (h : OrdersStand s t) (k : OrdersStand t u) : OrdersStand s u := by
  intro o ho
  obtain ⟨p, hp, p1, p2, p3, p4⟩ := k o ho
  obtain ⟨q, hq, q1, q2, q3, q4⟩ := h p hp
  exact ⟨q, hq, q1.trans p1, q2.trans p2, q3.trans p3, q4.trans p4⟩

/-- A waiting copy that is set or cleared. -/
theorem updateWaiting_stands (s : State) (b : Nat) (w : Bool) : OrdersStand s (s.updateOrder b fun o => { o with waiting := w }) := by
  intro o ho
  obtain ⟨p, hp, rfl⟩ := List.mem_map.1 ho
  refine ⟨p, hp, ?_⟩
  split <;> exact ⟨rfl, rfl, rfl, rfl⟩

theorem clearWaiting_stands (s : State) (b : Nat) : OrdersStand s (s.clearWaiting b) := updateWaiting_stands s b false

theorem startNext_stands (s : State) : OrdersStand s s.startNext := by
  rcases startNext_orders s with h | ⟨f, _, _, h⟩
  · exact .of_eq h
  · exact (clearWaiting_stands s _).trans (.of_eq h)

theorem startIfIdle_stands (s : State) : OrdersStand s s.startIfIdle := by
  unfold State.startIfIdle
  split
  · exact startNext_stands s
  · exact .refl s

theorem pushControl_stands (s : State) (f : ControlFrame) : OrdersStand s (s.pushControl f) := startIfIdle_stands (s.setLoop _)
theorem pushRoutine_stands (s : State) (r : Response) : OrdersStand s (s.pushRoutine r) := startIfIdle_stands (s.setLoop _)
theorem pushTrip_stands (s : State) (f : TripFrame) : OrdersStand s (s.pushTrip f) := startIfIdle_stands (s.setLoop _)

theorem attemptSend_stands (s : State) (b : Nat) : OrdersStand s (s.attemptSend b) := by
  unfold State.attemptSend
  split
  · split
    · exact (updateWaiting_stands s b true).trans (pushTrip_stands _ _)
    · exact .refl s
  · exact .refl s

theorem withdrawTrip_stands (s : State) (b : Nat) : OrdersStand s (s.withdrawTrip b) := clearWaiting_stands (s.setLoop _) b

theorem remove_stands (s : State) (b : Nat) :
    OrdersStand s ((s.setOrders (s.trip.orders.filter fun o => o.breaker ≠ b)).withdrawTrip b) := by
  have left : OrdersStand s (s.setOrders (s.trip.orders.filter fun o => o.breaker ≠ b)) :=
    fun o ho => ⟨o, (List.mem_filter.1 ho).1, rfl, rfl, rfl, rfl⟩
  exact left.trans (withdrawTrip_stands _ b)

theorem queueWaitingClaim_stands (s : State) : OrdersStand s s.queueWaitingClaim := by
  unfold State.queueWaitingClaim
  split
  · exact pushControl_stands (s.setLoop _) _
  · exact .refl s

/-! ## The timers of an order (R111, R115, R116, R121) -/

theorem orderTimers_of_stands {s t : State} (h : OrdersStand s t) (i : OrderTimersInState s) : OrderTimersInState t := by
  intro o ho
  obtain ⟨p, hp, -, state, failure, resend⟩ := h o ho
  have := i p hp
  rwa [state, failure, resend] at this

theorem newOrder_timers (s : State) (b : Nat) (p : Position) (c : SectionSet) (d : Nat) : (s.newOrder b p c d).TimersInState := by
  unfold State.newOrder
  split <;> simp [Order.TimersInState, Timer.isRunning]

theorem Part.orderTimers {s t : State} (h : Part s t) (one : OneOrderPerBreaker s) (i : OrderTimersInState s) :
    OrderTimersInState t := by
  cases h with
  | aside h => exact orderTimers_of_stands (.of_eq h.orders) i
  | @amend b o f ho ha =>
    intro p hp
    obtain ⟨q, hq, rfl⟩ := List.mem_map.1 hp
    split
    · rename_i e
      rw [order_unique one ho hq e]
      exact ha.timers (i o (order_mem ho))
    · exact i q hq
  | append c d ho hp =>
    intro o ho
    rw [appendOrder_orders] at ho
    rcases List.mem_append.1 ho with ho | ho
    · exact i o ho
    · rw [List.mem_singleton.1 ho]
      exact newOrder_timers _ _ _ _ _
  | @renew b o left ho =>
    intro p hp
    obtain ⟨q, hq, rfl⟩ := List.mem_map.1 hp
    split
    · simp [Timer.isRunning]
    · exact i q hq
  | send b => exact orderTimers_of_stands (attemptSend_stands s b) i
  | withdraw b => exact orderTimers_of_stands (withdrawTrip_stands s b) i
  | remove b => exact orderTimers_of_stands (remove_stands s b) i
  | control room hf => exact orderTimers_of_stands (pushControl_stands s _) i
  | cut p set h => exact i

/-- The timers of the orders, with one order on a breaker. -/
abbrev OrdersTimed (s : State) : Prop := OrderTimersInState s ∧ OneOrderPerBreaker s

theorem Parts.ordersTimed {s t : State} (h : Parts s t) (i : OrdersTimed s) : OrdersTimed t := by
  induction h with
  | refl => exact i
  | tail _ p ih => exact ⟨p.orderTimers ih.2 ih.1, p.oneOrder ih.2⟩

theorem Change.orderTimers {s t : State} (h : Change s t) (one : OneOrderPerBreaker s) (i : OrderTimersInState s) :
    OrderTimersInState t := by
  cases h with
  | demand h => exact (Parts.ordersTimed h.parts ⟨i, one⟩).1
  | heard seq left h => exact i
  | recut h => exact (Parts.ordersTimed (recomputeCut_byParts h) ⟨i, one⟩).1
  | claiming => exact i
  | claimQueued => exact orderTimers_of_stands (queueWaitingClaim_stands s) i
  | response r room => exact orderTimers_of_stands (pushRoutine_stands s r) i
  | retimed result hs hv hb => exact i
  | claimSent x =>
    unfold State.claimSent
    split <;> exact i
  | startNext => exact orderTimers_of_stands (startNext_stands s) i
  | closed list result hs ho => exact i
  | exchange h => exact orderTimers_of_stands (.of_eq (congrArg TripDispatcher.orders h.trip)) i

theorem orderTimers_of_none {s : State} (h : s.trip.orders = []) : OrderTimersInState s := by
  intro o ho
  rw [h] at ho
  cases ho

theorem softBase_stands (s : State) : OrdersStand s s.softBase := by
  intro o ho
  rw [softBase_orders] at ho
  obtain ⟨p, hp, rfl⟩ := List.mem_map.1 ho
  exact ⟨p, hp, rfl, rfl, rfl, rfl⟩

theorem ordersTimed_keptByChanges : KeptByChanges OrdersTimed where
  change h i := ⟨h.orderTimers i.2 i.1, h.oneOrder i.2⟩
  queue _ i := i
  opens _ _ i := i
  livening _ _ i := i
  staling _ i := i
  newTables {s} v d i := ⟨orderTimers_of_stands (.of_eq (newTables_orders s)) i.1, oneOrder_keptByChanges.newTables v d i.2⟩
  softBase {s} i := ⟨orderTimers_of_stands ((softBase_stands s).trans (.of_eq (congrArg _ (State.setLoop_trip _ _)))) i.1,
    oneOrder_keptByChanges.softBase i.2⟩
  hardBase {s} h mv i := ⟨orderTimers_of_none ((congrArg _ (State.setLoop_trip _ _)).trans (hardBase_orders s h mv)),
    oneOrder_keptByChanges.hardBase h mv i.2⟩
  begins _ _ _ := ⟨orderTimers_of_none rfl, oneOrder_of_none rfl⟩
  noted _ _ i := i
  tick {s} up i := by
    refine ⟨fun o ho => ?_, oneOrder_keptByChanges.tick up i.2⟩
    rw [tick_orders up] at ho
    obtain ⟨p, hp, rfl⟩ := List.mem_map.1 ho
    simpa [Order.tick] using i.1 p hp

/-! ## The persistence timers (R94) -/

theorem persistence_congr {s t : State} (h : t.sections.records = s.sections.records) (i : PersistenceInLight s) :
    PersistenceInLight t := by
  intro j
  rw [State.sectionRec_congr h]
  exact i j

theorem persistence_of_orders {s t : State} (h : KeptByOrders s t) : PersistenceInLight s → PersistenceInLight t :=
  persistence_congr (congrArg _ h.sections)

theorem Part.persistence {s t : State} (h : Part s t) (i : PersistenceInLight s) : PersistenceInLight t := by
  cases h with
  | aside h => exact h.persistence i
  | amend ho ha => exact i
  | append c d ho hp => exact persistence_of_orders (appendOrder_kept s _ _ _ _) i
  | renew left ho => exact i
  | send b => exact persistence_of_orders (attemptSend_kept s b) i
  | withdraw b => exact i
  | remove b => exact i
  | control room hf => exact persistence_of_orders (pushControl_kept s _) i
  | cut p set h => exact i

theorem Parts.persistence {s t : State} (h : Parts s t) (i : PersistenceInLight s) : PersistenceInLight t := by
  induction h with
  | refl => exact i
  | tail _ p ih => exact p.persistence ih

theorem Change.persistence {s t : State} (h : Change s t) (i : PersistenceInLight s) : PersistenceInLight t := by
  cases h with
  | demand h => exact Parts.persistence h.parts i
  | heard seq left h => exact i
  | recut h => exact Parts.persistence (recomputeCut_byParts h) i
  | claiming => exact i
  | claimQueued => exact persistence_congr (congrArg _ (queueWaitingClaim_kept s).sections) i
  | response r room => exact persistence_of_orders (pushRoutine_kept s r) i
  | retimed result hs hv hb => exact i
  | claimSent x => exact persistence_congr (congrArg _ (claimSent_kept s x).sections) i
  | startNext => exact persistence_of_orders (startNext_kept s) i
  | closed list result hs ho => exact i
  | exchange h => exact persistence_congr (congrArg _ h.sections) i

theorem newTables_sections (s : State) : s.newTables.sections = s.sections := by
  simp only [State.newTables, State.record_sections, State.carryNodes, State.carryChannels, State.carryPoints, State.carryBreakers]

/-- A section record that a vector of records holds at an index within it. -/
theorem sectionRec_ofFn {s : State} {f : Fin Config.sectionCount → SectionRec} (h : s.sections.records = Vector.ofFn f)
    {j : Nat} (hj : j < Config.sectionCount) : s.sectionRec j = f ⟨j, hj⟩ := by
  unfold State.sectionRec
  rw [h, Vector.getElem?_ofFn, dif_pos hj, Option.getD_some]

theorem sectionRec_outside (s : State) {j : Nat} (hj : ¬ j < Config.sectionCount) : s.sectionRec j = .resetInactive := by
  unfold State.sectionRec
  rw [Vector.getElem?_eq_none (by omega), Option.getD_none]

theorem persistence_ofFn {s : State} {f : Fin Config.sectionCount → SectionRec} (h : s.sections.records = Vector.ofFn f)
    (timed : ∀ i, (f i).persistence.isRunning = true → (f i).state = .light) : PersistenceInLight s := by
  intro j
  by_cases hj : j < Config.sectionCount
  · rw [sectionRec_ofFn h hj]
    exact timed _
  · rw [sectionRec_outside s hj]
    exact nofun

theorem freshRecords_records (s : State) : s.freshRecords.sections.records = s.sections.records := by
  unfold State.freshRecords
  obtain ⟨-, -, -, -, -, -, -, -, records⟩ := refreshView_same ({ s with
    nodes := s.tables.freshNodes
    channels := s.tables.freshChannels
    points := s.tables.freshPoints
    trip := { s.trip with positions := s.tables.freshPositions }
    lens := .reset } : State)
  exact records

theorem softSections_records (s : State) : s.softSections.sections.records = Vector.ofFn fun i : Fin Config.sectionCount =>
    if (s.sectionRec i).state = .tripped then s.sectionRec i
    else ⟨s.resetSectionState i (s.sectionRec i).block, (s.sectionRec i).maintenance, (s.sectionRec i).block, .stopped,
      false, false⟩ := rfl

/-- A soft reset before the records of the blocks take their values (R26, R177). -/
def State.softStart (s : State) : State := { s with
  loop := s.loop.softReset
  agent := s.agent.softReset
  trip := { s.trip with orders := s.trip.orders.map fun (o : Order) => { o with waiting := false } }
  supply := { s.supply with cause := .soft } }

theorem softBase_eq (s : State) : s.softBase = s.softStart.freshRecords.softSections.record (resetRecord .soft) := rfl

theorem softStart_sectionRec (s : State) (i : Nat) : s.softStart.freshRecords.sectionRec i = s.sectionRec i :=
  (State.sectionRec_congr (freshRecords_records s.softStart) i).trans rfl

theorem softBase_persistence {s : State} (i : PersistenceInLight s) : PersistenceInLight s.softBase := by
  rw [softBase_eq]
  refine persistence_congr (s := s.softStart.freshRecords.softSections) (congrArg _ (State.record_sections _ _))
    (persistence_ofFn (softSections_records _) fun j => ?_)
  rw [softStart_sectionRec]
  split
  · exact i j
  · exact nofun

theorem hardBase_records (s : State) (h : HardReset) (mv : Nat) : (s.hardBase h mv).sections.records =
    Vector.ofFn fun i : Fin Config.sectionCount =>
      ⟨(s.hardBase h mv).resetSectionState i false, false, false, .stopped, false, false⟩ := by
  unfold State.hardBase
  dsimp only
  split <;> rfl

theorem tick_records {s : State} (up : Up s) : s.tick.sections.records = Vector.ofFn fun i : Fin Config.sectionCount =>
    { s.sectionRec i with persistence := (s.sectionRec i).persistence.tick } := by
  unfold State.tick
  rw [if_neg (by simp [up])]

theorem persistence_keptByChanges : KeptByChanges PersistenceInLight where
  change := Change.persistence
  queue _ i := i
  opens _ _ i := i
  livening _ _ i := i
  staling _ i := i
  newTables {s} _ _ i := persistence_congr (congrArg _ (newTables_sections s)) i
  softBase {s} i := persistence_congr (s := s.softBase) (congrArg _ (State.setLoop_sections _ _)) (softBase_persistence i)
  hardBase {s} h mv _ := persistence_congr (s := s.hardBase h mv) (congrArg _ (State.setLoop_sections _ _))
    (persistence_ofFn (hardBase_records s h mv) fun _ => nofun)
  begins _ _ i := i
  noted _ _ i := i
  tick {s} up i := persistence_ofFn (tick_records up) fun j r => i j (by simpa using r)

/-! ## The nodes (R29 to R32, R39) -/

/-- A node record with its timer and its last sequence number in its live state (R30, R32). -/
def NodeRec.Timed (r : NodeRec) : Prop := (r.timer.isRunning = true ↔ r.live = .live) ∧ (r.lastSeq.isSome = true ↔ r.live = .live)

theorem NodeRec.absent_timed : NodeRec.absent.Timed := by simp [NodeRec.Timed, NodeRec.absent, Timer.isRunning]

theorem nodeTimers_congr {s t : State} (h : t.nodes = s.nodes) (i : NodeTimersInState s) : NodeTimersInState t := by
  intro n r hr
  rw [State.node_congr h] at hr
  exact i n r hr

/-- Every node but one stands, and that one has a record whose timer is in its state. -/
theorem nodeTimers_setNode {s t : State} {n : Nat} {r : NodeRec} (nodes : ∀ m, m ≠ n → t.node m = s.node m)
    (new : ∀ q, t.node n = some q → q = r) (h : r.Timed) (i : NodeTimersInState s) : NodeTimersInState t := by
  intro m q hq
  by_cases e : m = n
  · subst e
    exact new q hq ▸ h
  · rw [nodes m e] at hq
    exact i m q hq

theorem node_setNode_other (s : State) {n m : Nat} (h : m ≠ n) (r : NodeRec) : (s.setNode n r).node m = s.node m := by
  rw [State.node_setNode, if_neg fun e => h e.1.symm]

theorem node_setNode_self {s : State} {n : Nat} {r q : NodeRec} (h : (s.setNode n r).node n = some q) : q = r := by
  have known : n < Config.nodeCount := node_lt h
  rw [State.node_setNode, if_pos ⟨rfl, known⟩] at h
  exact (Option.some.inj h).symm

theorem live_timed (seq : Byte) (left : Nat) : (⟨.live, some seq, .running left⟩ : NodeRec).Timed := by
  simp [NodeRec.Timed, Timer.isRunning]

theorem Change.nodes {s t : State} (h : Change s t) :
    t.nodes = s.nodes ∨ ∃ n seq left, s.nodeLive n = true ∧ t = s.setNode n ⟨.live, some seq, .running left⟩ := by
  cases h with
  | demand h => exact .inl h.keeps.nodes
  | heard seq left h => exact .inr ⟨_, seq, left, h, rfl⟩
  | recut h => exact .inl (recomputeCut_kept s).nodes
  | claiming => exact .inl rfl
  | claimQueued => exact .inl (queueWaitingClaim_kept s).nodes
  | response r room => exact .inl (pushRoutine_kept s r).nodes
  | retimed result hs hv hb => exact .inl rfl
  | claimSent x => exact .inl (claimSent_kept s x).nodes
  | startNext => exact .inl (startNext_kept s).nodes
  | closed list result hs ho => exact .inl rfl
  | exchange h => exact .inl h.nodes

theorem Change.nodeTimers {s t : State} (h : Change s t) (i : NodeTimersInState s) : NodeTimersInState t := by
  rcases h.nodes with e | ⟨n, seq, left, -, rfl⟩
  · exact nodeTimers_congr e i
  · exact nodeTimers_setNode (fun m hm => node_setNode_other s hm _) (fun q => node_setNode_self) (live_timed seq left) i

/-- A node that becomes LIVE has its stale timer running by the end of the event (R30, R39). -/
theorem becomeLive_nodeTimers {s : State} (n : Nat) (r : NodeRec) (seq : Byte) (i : NodeTimersInState s) :
    NodeTimersInState (s.becomeLive n r seq) := by
  rw [becomeLive_eq]
  refine nodeTimers_setNode (fun m hm => ?_) (fun q => node_setNode_self) (live_timed seq _) i
  rw [node_setNode_other _ hm, State.node_congr (tellNeighbours_nodes (tellLive_byDemands n) _)]
  exact node_setNode_other s hm _

theorem staling_nodeTimers {s : State} (n : Nat) (i : NodeTimersInState s) :
    NodeTimersInState ((s.staling n).tellNeighbours (State.tellStale n)) := by
  refine nodeTimers_congr (tellNeighbours_nodes (tellStale_byDemands n) _) ?_
  exact nodeTimers_setNode (t := s.staling n) (fun m hm => node_setNode_other s hm _) (fun q => node_setNode_self)
    (by simp [NodeRec.Timed, Timer.isRunning]) i

theorem node_ofFn {s : State} {f : Fin Config.nodeCount → Option NodeRec} (h : s.nodes = Vector.ofFn f)
    {n : Nat} (hn : n < Config.nodeCount) : s.node n = f ⟨n, hn⟩ := by
  unfold State.node
  rw [h, Vector.getElem?_ofFn, dif_pos hn, Option.join_some]

theorem nodeTimers_ofFn {s : State} {f : Fin Config.nodeCount → Option NodeRec} (h : s.nodes = Vector.ofFn f)
    (timed : ∀ i r, f i = some r → r.Timed) : NodeTimersInState s := by
  intro n r hr
  rw [node_ofFn h (node_lt hr)] at hr
  exact timed _ r hr

theorem freshNodes_timed (t : Tables) {s : State} (h : s.nodes = t.freshNodes) : NodeTimersInState s := by
  refine nodeTimers_ofFn h fun i r hr => ?_
  split at hr
  · cases hr
    exact NodeRec.absent_timed
  · cases hr

theorem newTables_nodes (s : State) : s.newTables.nodes = Vector.ofFn fun i : Fin Config.nodeCount =>
    if nodeKept s.agent.active s.agent.shadow i then s.node i else if s.agent.shadow.nodeUsed i then some .absent else none := rfl

theorem newTables_nodeTimers {s : State} (i : NodeTimersInState s) : NodeTimersInState s.newTables := by
  refine nodeTimers_ofFn (newTables_nodes s) fun j r hr => ?_
  split at hr
  · exact i j r hr
  · split at hr
    · cases hr
      exact NodeRec.absent_timed
    · cases hr

theorem hardBase_nodes (s : State) (h : HardReset) (mv : Nat) : (s.hardBase h mv).nodes = s.readStore.tables.freshNodes := by
  unfold State.hardBase
  dsimp only
  split <;> rfl

theorem tick_nodes {s : State} (up : Up s) : s.tick.nodes = Vector.ofFn fun i : Fin Config.nodeCount =>
    (s.node i).map fun r => { r with timer := r.timer.tick } := by
  unfold State.tick
  rw [if_neg (by simp [up])]

theorem nodeTimers_keptByStep : KeptByStep NodeTimersInState where
  queue _ i := i
  change := Change.nodeTimers
  opens {s} c _ _ i := nodeTimers_congr (enterOpen_kept s c).nodes i
  live {s n r} seq _ i := becomeLive_nodeTimers n r seq i
  stale {s n r} _ i := staling_nodeTimers n i
  swap {s} _ _ i := by
    have run : ∀ {t u : State}, Changes t u → NodeTimersInState t → NodeTimersInState u := fun h j => by
      induction h with
      | refl => exact j
      | tail _ c ih => exact c.nodeTimers ih
    rw [swap_eq]
    exact run (swapEnds_byChanges _) (run (loopActivation_byChanges _) (newTables_nodeTimers i))
  softReset {s} _ := nodeTimers_congr (enterClaiming_kept s.softBase).nodes (freshNodes_timed s.agent.active rfl)
  begins _ _ i := i
  noted _ _ i := i
  ends {s} h mv _ := nodeTimers_congr (enterClaiming_kept (s.hardBase h mv)).nodes (freshNodes_timed _ (hardBase_nodes s h mv))
  tick {s} up i := by
    refine nodeTimers_ofFn (tick_nodes up) fun j r hr => ?_
    obtain ⟨q, hq, rfl⟩ := Option.map_eq_some_iff.1 hr
    simpa [NodeRec.Timed] using i j q hq

end Sys2Proof.Machine
end

section
/-! SUPPORT. One claim under way in CLAIMING, and the timers of the Loop Port in their loop states (R7 to R17). -/

namespace Sys2Proof.Machine

open Sys2Proof.Safety
open Relation (ReflTransGen)

/-- The timers of the Loop Port are in their loop states, and one claim is under way in CLAIMING while the part is up. During an entry
to OPEN, which `opening` marks, the beacon timer has yet to start (R16). -/
structure LoopPort.Timed (up opening : Prop) (l : LoopPort) : Prop where
  claims : up → claimsUnderWay l = if l.state = .claiming then 1 else 0
  claimTimer : up → l.claimTimer.isRunning = true → l.outstanding.isSome = true
  supervision : l.supervisionTimer.isRunning = true ↔ l.state = .loopClosed
  send : l.sendTimer.isRunning = true ↔ l.state = .loopClosed
  beacon : l.beaconTimer.isRunning = true → l.state = .loopOpen
  beaconRuns : l.state = .loopOpen → l.beaconTimer.isRunning = true ∨ opening

theorem loopTimers_iff (s : State) : LoopTimersInState s ↔ s.loop.Timed (Up s) False := by
  constructor
  · rintro ⟨claims, claimTimer, supervision, send, beacon⟩
    exact ⟨claims, claimTimer, supervision, send, beacon.1, fun h => .inl (beacon.2 h)⟩
  · rintro ⟨claims, claimTimer, supervision, send, beacon, runs⟩
    exact ⟨claims, claimTimer, supervision, send, beacon, fun h => (runs h).resolve_right not_false⟩

/-- The claims under way stay as many, and an outstanding claim stays outstanding. -/
structure ClaimsStay (l m : LoopPort) : Prop where
  count : claimsUnderWay m = claimsUnderWay l
  outstanding : l.outstanding.isSome = true → m.outstanding.isSome = true

theorem ClaimsStay.refl (l : LoopPort) : ClaimsStay l l := ⟨rfl, id⟩

theorem ClaimsStay.trans {l m n : LoopPort} (h : ClaimsStay l m) (k : ClaimsStay m n) : ClaimsStay l n :=
  ⟨k.count.trans h.count, k.outstanding ∘ h.outstanding⟩

theorem ClaimsStay.of_eq {l m : LoopPort} (h : m = l) : ClaimsStay l m := h ▸ .refl l

/-- The start of a frame (R8, R23): a queued CLAIM frame becomes the outstanding claim. -/
theorem startNext_claims {s : State} (one : claimsUnderWay s.loop ≤ 1) : ClaimsStay s.loop s.startNext.loop := by
  unfold claimsUnderWay at one
  unfold State.startNext
  split
  · exact ⟨rfl, id⟩
  · rename_i rest _ e
    rw [e, List.count_cons_self] at one
    have none : s.loop.outstanding.isSome = false := by
      by_contra h
      rw [if_pos (eq_true_of_ne_false h)] at one
      omega
    refine ⟨?_, fun _ => rfl⟩
    have now : claimsUnderWay s.loop = (if s.loop.claimWaiting then 1 else 0) + (rest.count .claim + 1) + 0 := by
      unfold claimsUnderWay
      rw [e, List.count_cons_self, none]
      rfl
    rw [now]
    exact (Nat.add_assoc _ _ _).trans rfl
  · rename_i f rest other _ e
    have same : (f :: rest).count .claim = rest.count .claim := List.count_cons_of_ne other
    refine ⟨?_, id⟩
    unfold claimsUnderWay
    rw [e, same]
    rfl
  · exact ⟨rfl, id⟩
  · exact ⟨rfl, id⟩

theorem startIfIdle_claims {s : State} (one : claimsUnderWay s.loop ≤ 1) : ClaimsStay s.loop s.startIfIdle.loop := by
  unfold State.startIfIdle
  split
  · exact startNext_claims one
  · exact .refl _

theorem pushTrip_claims {s : State} (one : claimsUnderWay s.loop ≤ 1) (f : TripFrame) : ClaimsStay s.loop (s.pushTrip f).loop :=
  ClaimsStay.trans (m := { s.loop with tripQ := s.loop.tripQ ++ [f] }) ⟨rfl, id⟩
    (startIfIdle_claims (s := s.setLoop { s.loop with tripQ := s.loop.tripQ ++ [f] }) one)

theorem pushRoutine_claims {s : State} (one : claimsUnderWay s.loop ≤ 1) (r : Response) :
    ClaimsStay s.loop (s.pushRoutine r).loop :=
  ClaimsStay.trans (m := { s.loop with routineQ := s.loop.routineQ ++ [r] }) ⟨rfl, id⟩
    (startIfIdle_claims (s := s.setLoop { s.loop with routineQ := s.loop.routineQ ++ [r] }) one)

theorem pushControl_claims {s : State} (one : claimsUnderWay s.loop ≤ 1) {f : ControlFrame} (hf : f ≠ .claim) :
    ClaimsStay s.loop (s.pushControl f).loop := by
  have joined : claimsUnderWay { s.loop with controlQ := s.loop.controlQ ++ [f] } = claimsUnderWay s.loop := by
    simp [claimsUnderWay, List.count_append, List.count_cons_of_ne hf]
  refine ClaimsStay.trans ⟨joined, id⟩
    (startIfIdle_claims (s := s.setLoop { s.loop with controlQ := s.loop.controlQ ++ [f] }) ?_)
  exact joined.trans_le one

/-- The waiting CLAIM frame joins the CONTROL queue, and is still the one claim under way (R7). -/
theorem queueWaitingClaim_claims {s : State} (one : claimsUnderWay s.loop ≤ 1) :
    ClaimsStay s.loop s.queueWaitingClaim.loop := by
  unfold State.queueWaitingClaim
  split
  · rename_i h
    rw [Bool.and_eq_true] at h
    have joined : claimsUnderWay { s.loop with claimWaiting := false, controlQ := s.loop.controlQ ++ [.claim] } =
        claimsUnderWay s.loop := by
      simp [claimsUnderWay, h.1, List.count_append]
      omega
    exact ClaimsStay.trans ⟨joined, id⟩ (startIfIdle_claims (s := s.setLoop { s.loop with
      claimWaiting := false, controlQ := s.loop.controlQ ++ [.claim] }) (joined.trans_le one))
  · exact .refl _

theorem attemptSend_claims {s : State} (one : claimsUnderWay s.loop ≤ 1) (b : Nat) : ClaimsStay s.loop (s.attemptSend b).loop := by
  unfold State.attemptSend
  split
  · split
    · exact pushTrip_claims (s := s.updateOrder b fun o => { o with waiting := true }) one _
    · exact .refl _
  · exact .refl _

theorem Part.claims {s t : State} (h : Part s t) (one : claimsUnderWay s.loop ≤ 1) : ClaimsStay s.loop t.loop := by
  cases h with
  | aside h => exact .of_eq h.loop
  | amend ho ha => exact .refl _
  | append c d ho hp => exact .of_eq (disturb_loop _)
  | renew left ho => exact .refl _
  | send b => exact attemptSend_claims one b
  | withdraw b => exact ⟨rfl, id⟩
  | remove b => exact ⟨rfl, id⟩
  | control room hf => exact pushControl_claims one hf
  | cut p set h => exact ⟨rfl, id⟩

theorem Parts.claims {s t : State} (h : Parts s t) (one : claimsUnderWay s.loop ≤ 1) : ClaimsStay s.loop t.loop := by
  induction h with
  | refl => exact .refl _
  | tail _ p ih => exact ih.trans (p.claims (ih.count.trans_le one))

/-- The loop state and the timers of the Loop Port are the same. -/
structure SameTimers (l m : LoopPort) : Prop where
  state : m.state = l.state
  claimTimer : m.claimTimer = l.claimTimer
  supervision : m.supervisionTimer = l.supervisionTimer
  send : m.sendTimer = l.sendTimer
  beacon : m.beaconTimer = l.beaconTimer

theorem SameTimers.of_rest {l m : LoopPort} (h : m.rest = l.rest) : SameTimers l m := by
  have state := congrArg LoopPort.state h
  have claimTimer := congrArg LoopPort.claimTimer h
  have supervision := congrArg LoopPort.supervisionTimer h
  have send := congrArg LoopPort.sendTimer h
  have beacon := congrArg LoopPort.beaconTimer h
  exact ⟨state, claimTimer, supervision, send, beacon⟩

theorem SameTimers.trans {l m n : LoopPort} (h : SameTimers l m) (k : SameTimers m n) : SameTimers l n :=
  ⟨k.state.trans h.state, k.claimTimer.trans h.claimTimer, k.supervision.trans h.supervision, k.send.trans h.send,
   k.beacon.trans h.beacon⟩

/-- A change that leaves the loop state and the timers of the Loop Port alone, and its claims as many. -/
theorem LoopPort.Timed.of_same {up opening : Prop} {l m : LoopPort} (h : l.Timed up opening) (same : SameTimers l m)
    (claims : up → ClaimsStay l m) : m.Timed up opening := by
  obtain ⟨state, claimTimer, supervision, send, beacon⟩ := same
  constructor
  · exact fun u => by rw [(claims u).count, state]; exact h.claims u
  · exact fun u r => (claims u).outstanding (h.claimTimer u (claimTimer ▸ r))
  · rw [supervision, state]; exact h.supervision
  · rw [send, state]; exact h.send
  · rw [beacon, state]; exact h.beacon
  · rw [beacon, state]; exact h.beaconRuns

theorem queueWaitingClaim_timers (s : State) : SameTimers s.loop s.queueWaitingClaim.loop := by
  unfold State.queueWaitingClaim
  split
  · exact SameTimers.trans (m := { s.loop with claimWaiting := false }) ⟨rfl, rfl, rfl, rfl, rfl⟩
      (.of_rest (pushControl_kept (s.setLoop { s.loop with claimWaiting := false }) .claim).loopRest)
  · exact .of_rest rfl

theorem recomputeCut_timers (s : State) : SameTimers s.loop s.recomputeCut.loop :=
  SameTimers.trans (m := s.newCut.loop) ⟨rfl, rfl, rfl, rfl, rfl⟩ (.of_rest (recomputeCut_loopRest s))

theorem LoopPort.Timed.oneClaim {up opening : Prop} {l : LoopPort} (h : l.Timed up opening) (u : up) : claimsUnderWay l ≤ 1 := by
  rw [h.claims u]
  split <;> omega

/-- Whatever preceded, an entry to CLAIMING has one claim waiting and no timer running (R7). -/
theorem toClaiming_timed (up opening : Prop) (l : LoopPort) : l.toClaiming.Timed up opening := by
  have none : (l.controlQ.filter ControlFrame.isTest).count .claim = 0 := by
    rw [List.count_eq_zero, List.mem_filter]
    exact fun h => absurd h.2 (by exact nofun)
  constructor <;> simp [LoopPort.toClaiming, claimsUnderWay, none, Timer.isRunning]

theorem Retimed.running {before after : Timer} {p : Prop} (h : Retimed before after p) (i : before.isRunning = true ↔ p) :
    after.isRunning = true ↔ p := by
  rcases h with rfl | ⟨run, was | state⟩
  · exact i
  · exact ⟨fun _ => i.1 was, fun _ => run⟩
  · exact ⟨fun _ => state, fun _ => run⟩

theorem Change.hardReset {s t : State} (h : Change s t) : t.hardReset = s.hardReset := by
  cases h with
  | demand h => exact h.keeps.hardReset
  | heard seq left h => rfl
  | recut h => exact (recomputeCut_kept s).hardReset
  | claiming => rfl
  | claimQueued => exact (queueWaitingClaim_kept s).hardReset
  | response r room => exact (pushRoutine_kept s r).hardReset
  | retimed result hs hv hb => rfl
  | claimSent x => exact (claimSent_kept s x).hardReset
  | startNext => exact (startNext_kept s).hardReset
  | closed list result hs ho => rfl
  | exchange h => exact h.hardReset

/-- In CLAIMING with an outstanding claim, no other claim is under way (R7 to R9). -/
theorem claims_of_outstanding {l : LoopPort} (one : claimsUnderWay l ≤ 1) (h : l.outstanding.isSome = true) :
    l.claimWaiting = false ∧ l.controlQ.count .claim = 0 := by
  unfold claimsUnderWay at one
  rw [if_pos h] at one
  by_cases w : l.claimWaiting = true
  · rw [if_pos w] at one; omega
  · exact ⟨by simpa using w, by omega⟩

theorem claims_none {l : LoopPort} (waiting : l.claimWaiting = false) (queued : l.controlQ.count .claim = 0)
    (outstanding : l.outstanding = none) : claimsUnderWay l = 0 := by
  simp [claimsUnderWay, waiting, queued, outstanding]

theorem Change.timed {s t : State} {opening : Prop} (h : Change s t) (i : s.loop.Timed (Up s) opening) :
    t.loop.Timed (Up t) opening := by
  have up : Up t ↔ Up s := by rw [Up, h.hardReset]
  rw [propext up]
  cases h with
  | demand h => exact i.of_same (.of_rest h.keeps.loopRest) fun u => Parts.claims h.parts (i.oneClaim u)
  | heard seq left h => exact i
  | recut h => exact i.of_same (recomputeCut_timers s) fun u => Parts.claims (recomputeCut_byParts h) (i.oneClaim u)
  | claiming => exact toClaiming_timed _ _ _
  | claimQueued => exact i.of_same (queueWaitingClaim_timers s) fun u => queueWaitingClaim_claims (i.oneClaim u)
  | response r room => exact i.of_same (.of_rest (pushRoutine_kept s r).loopRest) fun u => pushRoutine_claims (i.oneClaim u) r
  | retimed result hs hv hb =>
    refine ⟨i.claims, i.claimTimer, hv.running i.supervision, hs.running i.send, ?_, ?_⟩
    · rcases hb with rfl | ⟨-, was | state⟩
      · exact i.beacon
      · exact fun _ => i.beacon was
      · exact fun _ => state
    · rcases hb with rfl | ⟨run, -⟩
      · exact i.beaconRuns
      · exact fun _ => .inl run
  | claimSent x =>
    unfold State.claimSent
    split
    · rename_i h
      exact ⟨i.claims, fun _ _ => by simp [h.2], i.supervision, i.send, i.beacon, i.beaconRuns⟩
    · exact i
  | startNext => exact i.of_same (.of_rest (startNext_kept s).loopRest) fun u => startNext_claims (i.oneClaim u)
  | closed list result hs ho =>
    refine ⟨fun u => ?_, nofun, by simp [LoopPort.toClosed, Timer.isRunning], by simp [LoopPort.toClosed, Timer.isRunning],
      fun r => ?_, nofun⟩
    · obtain ⟨waiting, queued⟩ := claims_of_outstanding (i.oneClaim u) (by simp [ho])
      exact claims_none waiting queued rfl
    · have := i.beacon r
      rw [hs] at this
      cases this
  | exchange h => rw [h.loop]; exact i

theorem Changes.timed {s t : State} {opening : Prop} (h : Changes s t) (i : s.loop.Timed (Up s) opening) :
    t.loop.Timed (Up t) opening := by
  induction h with
  | refl => exact i
  | tail _ c ih => exact c.timed ih

/-- On entry to OPEN no claim is under way: either the loop was CLOSED, or the claim that timed out was the only one (R11, R16). -/
theorem toOpen_timed {l : LoopPort} {up : Prop} (u : up)
    (running : l.claimTimer.isRunning = true ∨ l.supervisionTimer.isRunning = true) (i : l.Timed up False) :
    l.toOpen.Timed up True := by
  have idle : l.claimWaiting = false ∧ l.controlQ.count .claim = 0 := by
    rcases running with r | r
    · exact claims_of_outstanding (i.oneClaim u) (i.claimTimer u r)
    · have none := i.claims u
      rw [i.supervision.1 r, if_neg nofun] at none
      unfold claimsUnderWay at none
      by_cases w : l.claimWaiting = true
      · rw [if_pos w] at none; omega
      · exact ⟨by simpa using w, by omega⟩
  have queued : (l.controlQ.filter fun f => f ≠ .supervision).count .claim = 0 :=
    Nat.le_zero.1 (idle.2 ▸ List.filter_sublist.count_le _)
  exact ⟨fun _ => claims_none idle.1 queued rfl, fun _ => nofun, ⟨nofun, nofun⟩, ⟨nofun, nofun⟩, fun _ => rfl,
    fun _ => .inr trivial⟩

/-- The beacon timer starts in OPEN, which ends the entry (R16). -/
theorem beaconStarts_timed {l : LoopPort} {up : Prop} (h : l.state = .loopOpen) (left : Nat) (i : l.Timed up True) :
    ({ l with beaconTimer := .running left } : LoopPort).Timed up False :=
  ⟨i.claims, i.claimTimer, i.supervision, i.send, fun _ => h, fun _ => .inl rfl⟩

theorem enterOpen_timed {s : State} (c : OpenCause) (u : Up s)
    (running : s.loop.claimTimer.isRunning = true ∨ s.loop.supervisionTimer.isRunning = true) (i : s.loop.Timed (Up s) False) :
    (s.enterOpen c).loop.Timed (Up (s.enterOpen c)) False := by
  have opened := Changes.timed (opening := True) (opened_byChanges s c) (toOpen_timed u running i)
  rw [enterOpen_eq, Up, State.setLoop_hardReset, State.setLoop_loop]
  exact beaconStarts_timed (opened_open s c) _ opened

/-- A hard reset is in progress: the claims do not count. -/
theorem LoopPort.Timed.inReset {l : LoopPort} {up down : Prop} (i : l.Timed up False) (d : ¬ down) : l.Timed down False :=
  ⟨fun u => absurd u d, fun u => absurd u d, i.supervision, i.send, i.beacon, i.beaconRuns⟩

theorem tick_timed {l : LoopPort} {up : Prop} (i : l.Timed up False) : ({ l with
    sendTimer := l.sendTimer.tick
    supervisionTimer := l.supervisionTimer.tick
    beaconTimer := l.beaconTimer.tick
    claimTimer := l.claimTimer.tick } : LoopPort).Timed up False := by
  obtain ⟨claims, claimTimer, supervision, send, beacon, runs⟩ := i
  constructor
  · exact claims
  all_goals simpa only [Timer.isRunning_tick]

/-- The condition on the Loop Port that every step keeps. -/
abbrev LoopTimed (s : State) : Prop := s.loop.Timed (Up s) False

theorem loopTimed_congr {s t : State} (loop : t.loop = s.loop) (hardReset : t.hardReset = s.hardReset) (i : LoopTimed s) :
    LoopTimed t := by
  unfold LoopTimed Up
  rw [loop, hardReset]
  exact i

theorem claiming_timed (s : State) : LoopTimed s.enterClaiming :=
  (Change.claimQueued (s.setLoop s.loop.toClaiming)).timed (toClaiming_timed _ _ _)

theorem loopTimers_keptByStep : KeptByStep LoopTimed where
  queue _ i := i
  change := Change.timed
  opens c u running i := enterOpen_timed c u running i
  live {s n r} seq hr i := (becomeLive_change hr seq).timed
    (Changes.timed (tellNeighbours_byChanges (tellLive_byDemands _) (s.livening n r seq)) i)
  stale {s n r} _ i := Changes.timed (tellNeighbours_byChanges (tellStale_byDemands _) (s.staling n)) i
  swap {s} _ _ i := by
    have tables : LoopTimed s.newTables := loopTimed_congr (newTables_loop s) (newTables_hardReset s) i
    rw [swap_eq]
    exact Changes.timed (swapEnds_byChanges _) (Changes.timed (loopActivation_byChanges _) tables)
  softReset {s} _ := claiming_timed s.softBase
  begins _ _ i := by
    refine LoopPort.Timed.inReset (up := False) ?_ nofun
    exact ⟨nofun, nofun, i.supervision, i.send, i.beacon, i.beaconRuns⟩
  noted _ _ i := i.inReset nofun
  ends {s} h mv _ := claiming_timed (s.hardBase h mv)
  tick {s} up i := by
    unfold LoopTimed Up
    rw [tick_loop up, tick_hardReset up]
    exact tick_timed i

/-- Settles O59: the timers of the loop, of the sections, of the orders and of the nodes are each kept by what one step is made of. -/
theorem stepKeepsTimersInState : Obligations.stepKeepsTimersInState := by
  unfold Obligations.stepKeepsTimersInState
  intro s t loop persistence orders nodes one h
  obtain ⟨orders, one⟩ := ordersTimed_keptByChanges.byStep.step h ⟨orders, one⟩
  exact ⟨(loopTimers_iff t).2 (loopTimers_keptByStep.step h ((loopTimers_iff s).1 loop)),
    persistence_keptByChanges.byStep.step h persistence, orders, nodeTimers_keptByStep.step h nodes, one⟩

end Sys2Proof.Machine
end

section
/-! SUPPORT. The cut breakers: no TRIP frame queued for one, no ISSUED order on one without a trip line (R21, R122), and the cut set that
of the live states (R20). -/

namespace Sys2Proof.Machine

open Sys2Proof.Safety
open Relation (ReflTransGen)

/-! ## An undisturbed validation stays quiet (R158, R159) -/

/-- What quietness is read from: no new order, no new episode, no new test. -/
theorem quiet_congr {s t : State} (ordered : t.ordered.Sublist s.ordered)
    (sections : ∀ i, (t.sectionRec i).state = (s.sectionRec i).state) (lens : t.lens.state = s.lens.state)
    (state : t.agent.state = s.agent.state) (disturbed : t.agent.disturbed = s.agent.disturbed)
    (h : QuietWhileUndisturbed s) : QuietWhileUndisturbed t := by
  intro v d
  obtain ⟨none, calm, idle⟩ := (quiet_iff s).1 (h (state ▸ v) (disturbed ▸ d))
  refine (quiet_iff t).2 ⟨?_, fun i hi => ?_, lens.trans idle⟩
  · have : s.ordered = [] := congrArg (List.map Order.breaker) none
    exact List.map_eq_nil_iff.1 (List.sublist_nil.1 (this ▸ ordered))
  · unfold SectionRec.lively
    rw [sections i]
    exact calm i hi

/-- An operation of the Trip Dispatcher that creates no order. -/
theorem quiet_of_orders {s t : State} (k : KeptByOrders s t) (agent : t.agent = s.agent) (ordered : t.ordered = s.ordered) :
    QuietWhileUndisturbed s → QuietWhileUndisturbed t :=
  quiet_congr (ordered ▸ .refl _) (fun i => congrArg _ (State.sectionRec_congr (congrArg _ k.sections) i)) (congrArg _ k.lens)
    k.state (congrArg _ agent)

/-- While an order stands, only a disturbed validation can be under way. -/
theorem disturbed_of_order {s : State} {b : Nat} {o : Order} (ho : s.order b = some o) (h : QuietWhileUndisturbed s) :
    Disturbed s := by
  intro v
  by_contra d
  have none := ((quiet_iff s).1 (h v (by simpa using d))).1
  have := order_mem ho
  rw [none] at this
  cases this

theorem Part.quiet {s t : State} (h : Part s t) (i : QuietWhileUndisturbed s) : QuietWhileUndisturbed t := by
  cases h with
  | aside h => exact h.quiet i
  | @amend b o f ho ha =>
    have disturbed : Disturbed s := disturbed_of_order ho i
    exact quiet_of_disturbed (s := s.updateOrder b f) disturbed
  | append c d ho hp => exact quiet_of_disturbed (disturb_disturbed _)
  | @renew b o left ho =>
    have disturbed : Disturbed s := disturbed_of_order ho i
    exact quiet_of_disturbed (s := s.renewOrder b left) disturbed
  | send b => exact quiet_of_orders (attemptSend_kept s b) (attemptSend_agent s b) (attemptSend_ordered s b) i
  | withdraw b => exact quiet_of_orders (withdrawTrip_kept s b) rfl (withdrawTrip_ordered s b) i
  | remove b =>
    refine quiet_congr (s := s) ?_ (fun _ => rfl) rfl rfl rfl i
    rw [withdrawTrip_ordered]
    exact List.filter_sublist.map Order.breaker
  | @control f room hf => exact quiet_of_orders (pushControl_kept s f) (startIfIdle_agent _) (pushControl_ordered s f) i
  | cut p set h => exact i

theorem Parts.quiet {s t : State} (h : Parts s t) (i : QuietWhileUndisturbed s) : QuietWhileUndisturbed t := by
  induction h with
  | refl => exact i
  | tail _ p ih => exact p.quiet ih

theorem queueWaitingClaim_agent (s : State) : s.queueWaitingClaim.agent = s.agent := by
  unfold State.queueWaitingClaim
  split
  · exact startIfIdle_agent _
  · rfl

theorem Change.quiet {s t : State} (h : Change s t) (i : QuietWhileUndisturbed s) : QuietWhileUndisturbed t := by
  cases h with
  | demand h => exact Parts.quiet h.parts i
  | heard seq left h => exact i
  | recut h => exact Parts.quiet (recomputeCut_byParts h) i
  | claiming => exact i
  | claimQueued =>
    have kept := queueWaitingClaim_kept s
    exact quiet_congr (queueWaitingClaim_ordered s ▸ .refl _) (fun j => congrArg _ (State.sectionRec_congr (congrArg _ kept.sections) j))
      (by have := congrArg LensEngine.state kept.lens; exact this) kept.state (congrArg _ (queueWaitingClaim_agent s)) i
  | response r room => exact quiet_of_orders (pushRoutine_kept s r) (startIfIdle_agent _) (pushRoutine_ordered s r) i
  | retimed result hs hv hb => exact i
  | claimSent x =>
    unfold State.claimSent
    split <;> exact i
  | startNext => exact quiet_of_orders (startNext_kept s) (startNext_agent s) (startNext_ordered s) i
  | closed list result hs ho => exact i
  | exchange h => exact h.quiet

/-! ## No ISSUED order on a cut breaker without a line (R122) -/

/-- No ISSUED order stands on a cut breaker without a trip line, but for the breakers in `exempt`, which have yet to be handed over. -/
def CutFailedBut (exempt : Nat → Prop) (s : State) : Prop :=
  ∀ o ∈ s.trip.orders, o.state = .issued → s.cutWithoutLine o.breaker = true → exempt o.breaker

theorem cutOrdersFailed_iff (s : State) : CutOrdersFailed s ↔ CutFailedBut (fun _ => False) s := by
  constructor
  · intro h o ho issued cut
    rw [h o ho issued] at cut
    cases cut
  · exact fun h o ho issued => Bool.eq_false_iff.2 (h o ho issued)

theorem isCut_congr {s t : State} (h : t.loop.cutSet = s.loop.cutSet) (b : Nat) : t.isCut b = s.isCut b := by
  unfold State.isCut
  rw [h]

theorem cutWithoutLine_congr {s t : State} (cut : t.loop.cutSet = s.loop.cutSet) (active : t.agent.active = s.agent.active) (b : Nat) :
    t.cutWithoutLine b = s.cutWithoutLine b := by
  unfold State.cutWithoutLine State.lineOf
  rw [isCut_congr cut, State.tables_congr active]

theorem cutSet_of_rest {l m : LoopPort} (h : m.rest = l.rest) : m.cutSet = l.cutSet := by
  have := congrArg LoopPort.cutSet h
  exact this

theorem cutFailed_of_stands {exempt : Nat → Prop} {s t : State} (stands : OrdersStand s t) (cut : t.loop.cutSet = s.loop.cutSet)
    (active : t.agent.active = s.agent.active) (h : CutFailedBut exempt s) : CutFailedBut exempt t := by
  intro o ho issued isCut
  obtain ⟨p, hp, breaker, state, -, -⟩ := stands o ho
  rw [cutWithoutLine_congr cut active] at isCut
  exact breaker ▸ h p hp (state.trans issued) (breaker.symm ▸ isCut)

/-- The same, for an operation of the Trip Dispatcher. -/
theorem cutFailed_of_orders {exempt : Nat → Prop} {s t : State} (k : KeptByOrders s t) (stands : OrdersStand s t) :
    CutFailedBut exempt s → CutFailedBut exempt t := cutFailed_of_stands stands (cutSet_of_rest k.loopRest) k.active

/-- The orders of a state in which the order on a breaker has been changed. -/
theorem cutFailed_updateOrder {exempt : Nat → Prop} {s : State} (b : Nat) (f : Order → Order) (hf : ∀ o, (f o).breaker = o.breaker)
    (h : ∀ p ∈ s.trip.orders, p.breaker = b → (f p).state = .issued → s.cutWithoutLine b = true → exempt b)
    (i : ∀ p ∈ s.trip.orders, p.breaker ≠ b → p.state = .issued → s.cutWithoutLine p.breaker = true → exempt p.breaker) :
    CutFailedBut exempt (s.updateOrder b f) := by
  intro o ho
  obtain ⟨p, hp, rfl⟩ := List.mem_map.1 ho
  by_cases e : p.breaker = b
  · rw [if_pos e, hf, e]
    exact h p hp e
  · rw [if_neg e]
    exact i p hp e

/-- An ISSUED order that is sent and drives its line fails at once if it must, and is then no exception (R122). -/
theorem issueOrder_cutFailed {exempt : Nat → Prop} {s : State} {b : Nat} {o : Order} (ho : s.order b = some o) (hi : o.state = .issued)
    (i : CutFailedBut (fun x => exempt x ∨ x = b) s) : CutFailedBut exempt (s.issueOrder b) := by
  obtain ⟨copy, h⟩ := order_sent ho hi
  have sent : CutFailedBut (fun x => exempt x ∨ x = b) ((s.attemptSend b).driveLine b) :=
    cutFailed_of_orders ((attemptSend_kept s b).trans (driveLine_kept _ b))
      ((attemptSend_stands s b).trans (.of_eq (driveLine_orders _ b))) i
  unfold State.issueOrder State.failAtOnce
  split
  · rw [h]
    obtain rfl := order_breaker h
    exact cutFailed_updateOrder _ (fun o => { o with state := .failed, failure := .stopped }) (fun _ => rfl)
      (fun _ _ _ => nofun) fun p hp ne issued cut => (sent p hp issued cut).resolve_right ne
  · rename_i safe
    intro p hp issued cut
    refine (sent p hp issued cut).resolve_right fun e => safe (e ▸ cut)

theorem appendOrder_cutWithoutLine (s : State) (b : Nat) (p : Position) (c : SectionSet) (d x : Nat) :
    (s.appendOrder b p c d).cutWithoutLine x = s.cutWithoutLine x := by
  have kept := appendOrder_kept s b p c d
  exact cutWithoutLine_congr (cutSet_of_rest kept.loopRest) kept.active x

theorem Demand.cutFailed {exempt : Nat → Prop} {s t : State} (h : Demand s t) (one : OneOrderPerBreaker s)
    (i : CutFailedBut exempt s) : CutFailedBut exempt t := by
  have weaker : ∀ b, CutFailedBut (fun x => exempt x ∨ x = b) s := fun b o ho hi hc => .inl (i o ho hi hc)
  cases h with
  | aside h => exact cutFailed_of_stands (.of_eq h.orders) (congrArg _ h.loop) h.active i
  | @amend b o f ho ha =>
    refine cutFailed_updateOrder b f ha.breaker (fun p hp e issued cut => ?_) fun p hp _ => i p hp
    obtain rfl := order_unique one ho hp e
    exact e ▸ i p hp (ha.issued issued) (e.symm ▸ cut)
  | @append b c d ho hp =>
    intro o ho issued cut
    rw [appendOrder_orders] at ho
    rw [appendOrder_cutWithoutLine] at cut
    rcases List.mem_append.1 ho with ho | ho
    · exact i o ho issued cut
    · rw [List.mem_singleton.1 ho] at issued
      cases issued
  | @issue b p c d e ho hp hn =>
    refine issueOrder_cutFailed (s := (s.appendOrder b p c d).record e) (order_appendOrder ho p c d)
      (by rw [newOrder_issued s hn]) fun o ho issued cut => ?_
    change o ∈ (s.appendOrder b p c d).trip.orders at ho
    change (s.appendOrder b p c d).cutWithoutLine o.breaker = true at cut
    rw [appendOrder_orders] at ho
    rw [appendOrder_cutWithoutLine] at cut
    rcases List.mem_append.1 ho with ho | ho
    · exact weaker b o ho issued cut
    · rw [List.mem_singleton.1 ho]
      exact .inr (newOrder_fields s b p c d).1
  | @reissue b o left e ho =>
    refine issueOrder_cutFailed (s := (s.renewOrder b left).record e) (order_renewOrder ho left) rfl ?_
    exact cutFailed_updateOrder (exempt := fun x => exempt x ∨ x = b) b (fun o => { o with
      state := .issued, failure := .running left, resend := .running Config.resendTime }) (fun _ => rfl)
      (fun _ _ _ _ _ => .inr rfl) fun p hp _ => weaker b p hp
  | send b => exact cutFailed_of_orders (attemptSend_kept s b) (attemptSend_stands s b) i
  | remove b => exact cutFailed_of_stands (remove_stands s b) rfl rfl i
  | @control f room hf => exact cutFailed_of_orders (pushControl_kept s f) (pushControl_stands s f) i

theorem Demands.cutFailed {exempt : Nat → Prop} {s t : State} (h : Demands s t) (one : OneOrderPerBreaker s)
    (i : CutFailedBut exempt s) : CutFailedBut exempt t := by
  induction h with
  | refl => exact i
  | tail r d ih => exact d.cutFailed (Demands.oneOrder r one) ih

/-- A breaker that has been handed over is no exception any more (R21, R122). -/
theorem enterCut_cutFailed {exempt : Nat → Prop} {s : State} {b : Nat} (one : OneOrderPerBreaker s)
    (i : CutFailedBut (fun x => exempt x ∨ x = b) s) : CutFailedBut exempt (s.enterCut b) := by
  have run := enterCut_byDemands s b
  have keeps := Demands.keeps run
  intro p hp issued cut
  refine (Demands.cutFailed run one i p hp issued cut).resolve_right fun e => ?_
  subst e
  rw [cutWithoutLine_congr (cutSet_of_rest keeps.loopRest) keeps.active] at cut
  have now := order_of_mem (Demands.oneOrder run one) hp
  by_cases was : ∃ o, s.order p.breaker = some o ∧ o.state = .issued
  · obtain ⟨o, ho, hi⟩ := was
    obtain ⟨q, hq, failed, -⟩ := enterCut_fails ho hi cut
    rw [now] at hq
    cases hq
    rw [issued] at failed
    cases failed
  · have same : s.enterCut p.breaker = s := by
      unfold State.enterCut
      split
      · rename_i o ho
        exact if_neg fun hi => was ⟨o, ho, hi⟩
      · rfl
    rw [same] at now
    exact was ⟨p, now, issued⟩

theorem enterCuts_cutFailed (l : List Nat) {s : State} (one : OneOrderPerBreaker s) (i : CutFailedBut (fun x => x ∈ l) s) :
    CutFailedBut (fun _ => False) (l.foldl State.enterCut s) := by
  induction l generalizing s with
  | nil => exact fun o ho hi hc => absurd (i o ho hi hc) List.not_mem_nil
  | cons b l ih =>
    refine ih (Demands.oneOrder (enterCut_byDemands s b) one) (enterCut_cutFailed one fun o ho hi hc => ?_)
    rcases List.mem_cons.1 (i o ho hi hc) with e | e
    · exact .inr e
    · exact .inl e

theorem withdrawTrips_stand (l : List Nat) (s : State) : OrdersStand s (l.foldl State.withdrawTrip s) :=
  keeps_foldl OrdersStand.refl OrdersStand.trans withdrawTrip_stands l s

theorem withdrawTrips_kept (l : List Nat) (s : State) : KeptByOrders s (l.foldl State.withdrawTrip s) :=
  keeps_foldl KeptByOrders.refl KeptByOrders.trans withdrawTrip_kept l s

/-- A recomputed cut set leaves no exception: the breakers that have entered it have been handed over, the others were in it (R21). -/
theorem recomputeCut_cutFailed {s : State} (one : OneOrderPerBreaker s) (i : CutOrdersFailed s) : CutOrdersFailed s.recomputeCut := by
  have entered : CutFailedBut (fun b => b ∈ (s.cutSetAt s.breakPosition).filter fun b => !s.isCut b) s.newCut := by
    intro o ho issued cut
    have before := i o ho issued
    simp only [State.cutWithoutLine, Bool.and_eq_true, Bool.and_eq_false_iff, State.isCut] at cut before
    rw [List.mem_filter, State.isCut]
    have lineless : decide (s.lineOf o.breaker = none) = true := cut.2
    have inNew : (s.cutSetAt s.breakPosition).contains o.breaker = true := cut.1
    rw [lineless] at before
    exact ⟨List.contains_iff_mem.1 inNew, by rw [before.resolve_right nofun]; rfl⟩
  rw [cutOrdersFailed_iff, recomputeCut_eq]
  exact cutFailed_of_orders (withdrawTrips_kept _ _) (withdrawTrips_stand _ _) (enterCuts_cutFailed _ one entered)

/-! ## No TRIP frame queued for a cut breaker (R21, R122) -/

theorem cutNotQueued_of_subset {s t : State} (sub : ∀ f ∈ t.loop.tripQ, f ∈ s.loop.tripQ) (cut : t.loop.cutSet = s.loop.cutSet)
    (i : CutNotQueued s) : CutNotQueued t := by
  intro f hf
  rw [isCut_congr cut]
  exact i f (sub f hf)

theorem startNext_tripQ (s : State) : ∀ f ∈ s.startNext.loop.tripQ, f ∈ s.loop.tripQ := by
  intro f hf
  unfold State.startNext at hf
  split at hf
  · rename_i g rest e
    rw [e]
    exact List.mem_cons_of_mem _ hf
  all_goals exact hf

theorem startNext_notQueued {s : State} (i : CutNotQueued s) : CutNotQueued s.startNext :=
  cutNotQueued_of_subset (startNext_tripQ s) (cutSet_of_rest (startNext_kept s).loopRest) i

theorem startIfIdle_notQueued {s : State} (i : CutNotQueued s) : CutNotQueued s.startIfIdle := by
  unfold State.startIfIdle
  split
  · exact startNext_notQueued i
  · exact i

theorem attemptSend_notQueued {s : State} (i : CutNotQueued s) (b : Nat) : CutNotQueued (s.attemptSend b) := by
  unfold State.attemptSend
  split
  · rename_i o n ho _
    split
    · rename_i sends
      simp only [Bool.and_eq_true, Bool.not_eq_true'] at sends
      obtain ⟨⟨⟨-, uncut⟩, -⟩, -⟩ := sends
      refine startIfIdle_notQueued fun f hf => ?_
      rcases List.mem_append.1 hf with hf | hf
      · exact i f hf
      · rw [List.mem_singleton.1 hf, show (State.tripFrame _ o n).breaker = b from order_breaker ho]
        exact uncut
    · exact i
  · exact i

theorem failAtOnce_loop (s : State) (b : Nat) : (s.failAtOnce b).loop = s.loop := by
  unfold State.failAtOnce
  repeat' split
  all_goals rfl

theorem driveLine_loop (s : State) (b : Nat) : (s.driveLine b).loop = s.loop := by
  unfold State.driveLine
  repeat' split
  all_goals rfl

theorem cutNotQueued_of_loop {s t : State} (h : t.loop = s.loop) : CutNotQueued s → CutNotQueued t :=
  cutNotQueued_of_subset (fun f hf => h ▸ hf) (by rw [h])

theorem issueOrder_notQueued {s : State} (i : CutNotQueued s) (b : Nat) : CutNotQueued (s.issueOrder b) :=
  cutNotQueued_of_loop ((failAtOnce_loop _ b).trans (driveLine_loop _ b)) (attemptSend_notQueued i b)

theorem Demand.notQueued {s t : State} (h : Demand s t) (i : CutNotQueued s) : CutNotQueued t := by
  cases h with
  | aside h => exact cutNotQueued_of_loop h.loop i
  | amend ho ha => exact i
  | append c d ho hp => exact cutNotQueued_of_loop (disturb_loop _) i
  | @issue b p c d e ho hp hn =>
    exact issueOrder_notQueued (s := (s.appendOrder b p c d).record e) (cutNotQueued_of_loop (disturb_loop _) i) _
  | @reissue b o left e ho => exact issueOrder_notQueued (s := (s.renewOrder b left).record e) i _
  | send b => exact attemptSend_notQueued i b
  | remove b => exact cutNotQueued_of_subset (fun f hf => (List.mem_filter.1 hf).1) rfl i
  | control room hf => exact startIfIdle_notQueued i

theorem withdrawTrips_tripQ (l : List Nat) (s : State) {f : TripFrame} (hf : f ∈ (l.foldl State.withdrawTrip s).loop.tripQ) :
    f ∈ s.loop.tripQ ∧ f.breaker ∉ l := by
  induction l generalizing s with
  | nil => exact ⟨hf, List.not_mem_nil⟩
  | cons b l ih =>
    obtain ⟨stays, others⟩ := ih _ hf
    obtain ⟨stays, ne⟩ := List.mem_filter.1 stays
    exact ⟨stays, fun h => (List.mem_cons.1 h).elim (by simpa using ne) others⟩

theorem recomputeCut_notQueued (s : State) : CutNotQueued s.recomputeCut := by
  intro f hf
  rw [isCut_congr (s := s.newCut) (cutSet_of_rest (recomputeCut_loopRest s))]
  rw [recomputeCut_eq] at hf
  have := (withdrawTrips_tripQ _ _ hf).2
  unfold State.isCut
  rw [Bool.eq_false_iff, ne_eq, List.contains_iff_mem]
  exact this

/-! ## The cut breakers under every change -/

/-- The conditions on the cut breakers that every change keeps. -/
abbrev CutKept (s : State) : Prop := CutNotQueued s ∧ CutOrdersFailed s ∧ OneOrderPerBreaker s ∧ QuietWhileUndisturbed s

theorem cutFailed_of_uncut {s : State} (h : s.loop.cutSet = []) : CutOrdersFailed s := by
  intro o _ _
  simp [State.cutWithoutLine, State.isCut, h]

theorem cutNotQueued_of_uncut {s : State} (h : s.loop.cutSet = []) : CutNotQueued s := by
  intro f _
  simp [State.isCut, h]

theorem queueWaitingClaim_cutSet (s : State) : s.queueWaitingClaim.loop.cutSet = s.loop.cutSet := by
  unfold State.queueWaitingClaim
  split
  · exact (cutSet_of_rest (pushControl_kept (s.setLoop { s.loop with claimWaiting := false }) .claim).loopRest).trans rfl
  · rfl

theorem Change.notQueued {s t : State} (h : Change s t) (i : CutNotQueued s) : CutNotQueued t := by
  cases h with
  | demand h => exact h.notQueued i
  | heard seq left h => exact i
  | recut h => exact recomputeCut_notQueued s
  | claiming => exact cutNotQueued_of_uncut rfl
  | claimQueued =>
    unfold State.queueWaitingClaim
    split
    · exact startIfIdle_notQueued i
    · exact i
  | response r room => exact startIfIdle_notQueued i
  | retimed result hs hv hb => exact i
  | claimSent x =>
    unfold State.claimSent
    split <;> exact i
  | startNext => exact startNext_notQueued i
  | closed list result hs ho => exact i
  | exchange h => exact cutNotQueued_of_loop h.loop i

theorem Change.cutFailed {s t : State} (h : Change s t) (one : OneOrderPerBreaker s) (i : CutOrdersFailed s) : CutOrdersFailed t := by
  cases h with
  | demand h => exact (cutOrdersFailed_iff t).2 (h.cutFailed one ((cutOrdersFailed_iff s).1 i))
  | heard seq left h => exact i
  | recut h => exact recomputeCut_cutFailed one i
  | claiming => exact cutFailed_of_uncut rfl
  | claimQueued =>
    exact (cutOrdersFailed_iff _).2 (cutFailed_of_stands (queueWaitingClaim_stands s) (queueWaitingClaim_cutSet s)
      (queueWaitingClaim_kept s).active ((cutOrdersFailed_iff s).1 i))
  | response r room =>
    exact (cutOrdersFailed_iff _).2 (cutFailed_of_orders (pushRoutine_kept s r) (pushRoutine_stands s r) ((cutOrdersFailed_iff s).1 i))
  | retimed result hs hv hb => exact i
  | claimSent x =>
    unfold State.claimSent
    split <;> exact i
  | startNext =>
    exact (cutOrdersFailed_iff _).2 (cutFailed_of_orders (startNext_kept s) (startNext_stands s) ((cutOrdersFailed_iff s).1 i))
  | closed list result hs ho => exact i
  | exchange h =>
    exact (cutOrdersFailed_iff t).2 (cutFailed_of_stands (.of_eq (congrArg _ h.trip)) (congrArg _ h.loop) h.active
      ((cutOrdersFailed_iff s).1 i))

theorem Change.cutKept {s t : State} (h : Change s t) (i : CutKept s) : CutKept t := by
  obtain ⟨queue, orders, one, quiet⟩ := i
  exact ⟨h.notQueued queue, h.cutFailed one orders, h.oneOrder one, h.quiet quiet⟩

theorem cutFailed_of_none {s : State} (h : s.trip.orders = []) : CutOrdersFailed s := by
  intro o ho
  rw [h] at ho
  cases ho

theorem newTables_agent (s : State) : s.newTables.agent.state = s.agent.state ∧ s.newTables.agent.disturbed = s.agent.disturbed :=
  ⟨rfl, rfl⟩

theorem newTables_lens (s : State) : s.newTables.lens = s.lens := by
  simp only [State.newTables, State.record_lens, State.carryNodes, State.carryChannels, State.carryPoints, State.carryBreakers]

theorem quiet_of_idle {s : State} (h : s.agent.state = .idle) : QuietWhileUndisturbed s := by
  intro v
  rw [h] at v
  cases v

theorem softBase_idle (s : State) : s.softBase.agent.state = .idle := rfl

theorem hardBase_idle (s : State) (h : HardReset) (mv : Nat) : (s.hardBase h mv).agent.state = .idle := by
  unfold State.hardBase
  dsimp only
  split <;> rfl

theorem tick_sectionState {s : State} (up : Up s) (i : Nat) : (s.tick.sectionRec i).state = (s.sectionRec i).state := by
  by_cases hi : i < Config.sectionCount
  · rw [sectionRec_ofFn (tick_records up) hi]
  · rw [sectionRec_outside _ hi, sectionRec_outside _ hi]

theorem tick_stays {s : State} (up : Up s) : s.tick.agent = s.agent ∧ s.tick.lens.state = s.lens.state := by
  unfold State.tick
  rw [if_neg (by simp [up])]
  exact ⟨rfl, rfl⟩

theorem newTables_cutKept {s : State} (v : s.agent.state = .validating) (d : s.agent.disturbed = false) (i : CutKept s) :
    CutKept s.newTables := by
  obtain ⟨queue, -, one, quiet⟩ := i
  have none := ((quiet_iff s).1 (quiet v d)).1
  refine ⟨cutNotQueued_of_loop (newTables_loop s) queue, cutFailed_of_none ((newTables_orders s).trans none),
    oneOrder_keptByChanges.newTables v d one, ?_⟩
  have ordered : s.newTables.ordered = s.ordered := ordered_congr (newTables_orders s)
  exact quiet_congr (s := s) (t := s.newTables) (by rw [ordered])
    (fun i => congrArg SectionRec.state
      (State.sectionRec_congr (congrArg SectionEvaluator.records (newTables_sections s)) i))
    (congrArg LensEngine.state (newTables_lens s))
    (newTables_agent s).1 (newTables_agent s).2 quiet

theorem tick_cutKept {s : State} (up : Up s) (i : CutKept s) : CutKept s.tick := by
  obtain ⟨queue, orders, one, quiet⟩ := i
  have agent := (tick_stays up).1
  refine ⟨cutNotQueued_of_subset (fun f hf => by rw [tick_loop up] at hf; exact hf) (by rw [tick_loop up]) queue,
    fun o ho issued => ?_, oneOrder_keptByChanges.tick up one,
    quiet_congr (tick_ordered up ▸ .refl _) (tick_sectionState up) (tick_stays up).2 (by rw [agent]) (by rw [agent]) quiet⟩
  rw [tick_orders up] at ho
  obtain ⟨p, hp, rfl⟩ := List.mem_map.1 ho
  rw [cutWithoutLine_congr (s := s) (by rw [tick_loop up]) (by rw [agent])]
  exact orders p hp issued

/-- With no order, no queue and nothing cut there is nothing to keep but the quiet of a validation. -/
theorem cutKept_of_uncut {s : State} (cut : s.loop.cutSet = []) (one : OneOrderPerBreaker s) (quiet : QuietWhileUndisturbed s) :
    CutKept s := ⟨cutNotQueued_of_uncut cut, cutFailed_of_uncut cut, one, quiet⟩

/-- A hard reset begins with no order and empty queues (R6, R128). -/
theorem begun_cutKept {s t : State} (queue : t.loop.tripQ = []) (orders : t.trip.orders = [])
    (sections : t.sections = s.sections) (lens : t.lens = s.lens) (agent : t.agent = s.agent) (i : CutKept s) : CutKept t := by
  obtain ⟨-, -, -, quiet⟩ := i
  refine ⟨fun f hf => ?_, cutFailed_of_none orders, oneOrder_of_none orders, ?_⟩
  · rw [queue] at hf
    cases hf
  · have none : t.ordered = [] := congrArg (List.map Order.breaker) orders
    exact quiet_congr (none ▸ List.nil_sublist _) (fun i => congrArg _ (State.sectionRec_congr (congrArg _ sections) i))
      (congrArg _ lens) (congrArg _ agent) (congrArg _ agent) quiet

theorem cutKept_keptByChanges : KeptByChanges CutKept where
  change := Change.cutKept
  queue _ i := i
  opens _ _ i := i
  livening _ _ i := i
  staling _ i := i
  newTables v d i := newTables_cutKept v d i
  softBase {s} i := by
    obtain ⟨-, -, one, -⟩ := i
    refine cutKept_of_uncut rfl (oneOrder_keptByChanges.softBase one) (quiet_of_idle ?_)
    exact (congrArg Agent.state (State.setLoop_agent _ _)).trans (softBase_idle s)
  hardBase {s} h mv i := by
    obtain ⟨-, -, one, -⟩ := i
    refine cutKept_of_uncut rfl (oneOrder_keptByChanges.hardBase h mv one) (quiet_of_idle ?_)
    exact (congrArg Agent.state (State.setLoop_agent _ _)).trans (hardBase_idle s h mv)
  begins {s} _ _ i := begun_cutKept (s := s) rfl rfl rfl rfl rfl i
  noted _ _ i := i
  tick up i := tick_cutKept up i

/-! ## The cut set current (R20, R21) -/

theorem breakPosition_congr {s t : State} (active : t.agent.active = s.agent.active) (live : ∀ n, t.nodeLive n = s.nodeLive n) :
    t.breakPosition = s.breakPosition := by
  unfold State.breakPosition
  rw [State.tables_congr active]
  simp only [live]

theorem cutSetAt_congr {s t : State} (active : t.agent.active = s.agent.active) (p : Nat) : t.cutSetAt p = s.cutSetAt p := by
  unfold State.cutSetAt State.beyond
  rw [State.tables_congr active]

theorem nodeLive_congr {s t : State} (h : t.nodes = s.nodes) (n : Nat) : t.nodeLive n = s.nodeLive n := by
  unfold State.nodeLive
  rw [State.node_congr h]

/-- The break position and the cut set are current, as a structure, at which the reduction of a claim about a long term stops. -/
structure CutCurrent (s : State) : Prop where
  holds : CutSetCurrent s

theorem cutCurrent_congr {s t : State} (state : t.loop.state = s.loop.state) (breakPos : t.loop.breakPos = s.loop.breakPos)
    (cutSet : t.loop.cutSet = s.loop.cutSet) (active : t.agent.active = s.agent.active) (live : ∀ n, t.nodeLive n = s.nodeLive n)
    (i : CutCurrent s) : CutCurrent t := by
  refine ⟨?_⟩
  have holds := i.holds
  unfold CutSetCurrent at holds ⊢
  rw [state, breakPos, cutSet, breakPosition_congr active live, cutSetAt_congr active]
  exact holds

theorem breakPos_of_rest {l m : LoopPort} (h : m.rest = l.rest) : m.breakPos = l.breakPos := by
  have := congrArg LoopPort.breakPos h
  exact this

theorem cutCurrent_of_rest {s t : State} (rest : t.loop.rest = s.loop.rest) (active : t.agent.active = s.agent.active)
    (nodes : t.nodes = s.nodes) : CutCurrent s → CutCurrent t :=
  cutCurrent_congr (LoopPort.rest_state rest) (breakPos_of_rest rest) (cutSet_of_rest rest) active (nodeLive_congr nodes)

/-- Outside OPEN the tables and the live states do not matter. -/
theorem cutCurrent_of_loop {s t : State} (loop : t.loop = s.loop) (h : s.loop.state ≠ .loopOpen) (i : CutCurrent s) :
    CutCurrent t := by
  refine ⟨?_⟩
  have holds := i.holds
  unfold CutSetCurrent at holds ⊢
  rw [if_neg h] at holds
  rw [loop, if_neg h]
  exact holds

theorem recomputeCut_current {s : State} (h : s.loop.state = .loopOpen) : CutCurrent s.recomputeCut := by
  have kept := recomputeCut_kept s
  have cut : CutCurrent s.newCut := by
    refine ⟨?_⟩
    unfold CutSetCurrent
    rw [if_pos (show s.newCut.loop.state = .loopOpen from h)]
    exact ⟨rfl, rfl⟩
  exact cutCurrent_of_rest (s := s.newCut) (recomputeCut_loopRest s) kept.active kept.nodes cut

/-- A LIVE node that is heard stays LIVE. -/
theorem heard_live {s : State} {n : Nat} (h : s.nodeLive n = true) (seq : Byte) (left m : Nat) :
    (s.setNode n ⟨.live, some seq, .running left⟩).nodeLive m = s.nodeLive m := by
  by_cases e : n = m ∧ m < Config.nodeCount
  · obtain ⟨rfl, known⟩ := e
    rw [h]
    unfold State.nodeLive
    rw [State.node_setNode, if_pos ⟨rfl, known⟩]
    rfl
  · unfold State.nodeLive
    rw [State.node_setNode, if_neg e]

theorem Change.cutCurrent {s t : State} (h : Change s t) (i : CutCurrent s) : CutCurrent t := by
  cases h with
  | demand h => exact cutCurrent_of_rest h.keeps.loopRest h.keeps.active h.keeps.nodes i
  | heard seq left h => exact cutCurrent_congr (s := s) rfl rfl rfl rfl (heard_live h seq left) i
  | recut h => exact recomputeCut_current h
  | claiming => exact ⟨⟨rfl, rfl⟩⟩
  | claimQueued =>
    unfold State.queueWaitingClaim
    split
    · have kept := pushControl_kept (s.setLoop { s.loop with claimWaiting := false }) .claim
      exact cutCurrent_of_rest kept.loopRest kept.active kept.nodes ⟨i.holds⟩
    · exact i
  | response r room =>
    have kept := pushRoutine_kept s r
    exact cutCurrent_of_rest kept.loopRest kept.active kept.nodes i
  | retimed result hs hv hb => exact ⟨i.holds⟩
  | claimSent x =>
    unfold State.claimSent
    split
    · exact ⟨i.holds⟩
    · exact i
  | startNext =>
    have kept := startNext_kept s
    exact cutCurrent_of_rest kept.loopRest kept.active kept.nodes i
  | closed list result hs ho =>
    have holds := i.holds
    unfold CutSetCurrent at holds
    rw [hs] at holds
    exact ⟨holds⟩
  | exchange h => exact cutCurrent_of_rest (congrArg _ h.loop) h.active h.nodes i

theorem Changes.cutCurrent {s t : State} (h : Changes s t) (i : CutCurrent s) : CutCurrent t := by
  induction h with
  | refl => exact i
  | tail _ c ih => exact c.cutCurrent ih

/-- Whichever is told first, the cut set is current once a change of a live state has been reported (R20, R40). -/
theorem tellNeighbours_current {tell : State → State} (h : ∀ s, Demands s (tell s)) {s : State}
    (i : s.loop.state ≠ .loopOpen → CutCurrent s) : CutCurrent (s.tellNeighbours tell) := by
  unfold State.tellNeighbours
  split
  · rename_i isOpen
    dsimp only
    split
    · exact Changes.cutCurrent (Demands.changes (h _)) (recomputeCut_current isOpen)
    · exact recomputeCut_current ((Demands.loopState (h _)).trans isOpen)
  · exact Changes.cutCurrent (Demands.changes (h s)) (i ‹_›)

theorem loopActivation_current {s : State} (i : s.loop.state ≠ .loopOpen → CutCurrent s) : CutCurrent s.loopActivation := by
  by_cases h : s.loop.state = .loopOpen
  · unfold State.loopActivation
    rw [h]
    exact recomputeCut_current h
  · exact Changes.cutCurrent (loopActivation_byChanges s) (i h)

theorem claiming_current (s : State) : CutCurrent s.enterClaiming :=
  (Change.claimQueued (s.setLoop s.loop.toClaiming)).cutCurrent ⟨⟨rfl, rfl⟩⟩

theorem tick_nodeLive {s : State} (up : Up s) (n : Nat) : s.tick.nodeLive n = s.nodeLive n := by
  unfold State.nodeLive
  by_cases hn : n < Config.nodeCount
  · rw [node_ofFn (tick_nodes up) hn]
    cases s.node n <;> rfl
  · have none : ∀ u : State, u.node n = none := fun u => by
      unfold State.node
      rw [Vector.getElem?_eq_none (by omega)]
      rfl
    rw [none, none]

theorem cutCurrent_keptByStep : KeptByStep CutCurrent where
  queue _ i := ⟨i.holds⟩
  change := Change.cutCurrent
  opens {s} c _ _ _ := (enterOpen_change s c).cutCurrent
    (Changes.cutCurrent (Demands.changes (opened_byDemands s c)) (recomputeCut_current (opening_open s)))
  live {s n r} seq hr i := (becomeLive_change hr seq).cutCurrent
    (tellNeighbours_current (tellLive_byDemands n) fun h => cutCurrent_of_loop (s := s) rfl h i)
  stale {s n r} _ i := tellNeighbours_current (tellStale_byDemands n) fun h => cutCurrent_of_loop (s := s) rfl h i
  swap {s} _ _ i := by
    have tables : s.newTables.loop.state ≠ .loopOpen → CutCurrent s.newTables := fun h =>
      cutCurrent_of_loop (newTables_loop s) (newTables_loop s ▸ h) i
    rw [swap_eq]
    exact Changes.cutCurrent (swapEnds_byChanges _) (loopActivation_current tables)
  softReset {s} _ := claiming_current s.softBase
  begins {s} _ _ i := cutCurrent_congr (s := s) rfl rfl rfl rfl (fun _ => rfl) i
  noted _ _ i := ⟨i.holds⟩
  ends {s} h mv _ := claiming_current (s.hardBase h mv)
  tick {s} up i := by
    have agent := (tick_stays up).1
    exact cutCurrent_congr (by rw [tick_loop up]) (by rw [tick_loop up]) (by rw [tick_loop up]) (by rw [agent])
      (tick_nodeLive up) i

/-- Settles O58: a new cut set hands over the breakers that enter it and withdraws their frames; every other change leaves the cut set
alone and fails at once the orders that it issues on cut breakers without a line. -/
theorem stepKeepsCutBreakers : Obligations.stepKeepsCutBreakers := by
  unfold Obligations.stepKeepsCutBreakers
  intro s t current queue orders one quiet h
  exact ⟨(cutCurrent_keptByStep.step h ⟨current⟩).holds, cutKept_keptByChanges.byStep.step h ⟨queue, orders, one, quiet⟩⟩

end Sys2Proof.Machine
end

section
/-! SUPPORT. Frames at LOOP_RX (R1 to R4): what the bytes of a frame are read as, and the command that a good frame is. -/

namespace Sys2Proof.Machine

open Sys2Proof.Safety

/-! ## Commands inside and outside a hard reset -/

theorem outsideReset_up {s : State} (h : Up s) (f : State → State) : s.outsideReset f = f s := by
  unfold State.outsideReset
  rw [if_neg (by simp [h])]

theorem outsideReset_down {s : State} (h : s.hardReset ≠ none) (f : State → State) : s.outsideReset f = s := by
  unfold State.outsideReset
  rw [if_pos (Option.isSome_iff_ne_none.2 h)]

/-- A command that does nothing outside a hard reset does nothing at all. -/
theorem outsideReset_same {s : State} {f : State → State} (h : f s = s) : s.outsideReset f = s := by
  unfold State.outsideReset
  split
  · rfl
  · exact h

/-! ## The bytes of a frame (R1, R2) -/

/-- Bytes that are too few, or whose length field disagrees with them, are no frame (R1). -/
theorem frameOf_of_length {bytes : List Byte}
    (h : bytes.length < 7 ∨ 200 < (bytes.getD 4 0).toNat ∨ bytes.length ≠ 7 + (bytes.getD 4 0).toNat) : frameOf bytes = none := by
  unfold frameOf
  split
  · rename_i n rest
    simp only [List.length_cons, List.getD_cons_succ, List.getD_cons_zero] at h
    rw [if_neg]
    rintro ⟨long, short, agrees⟩
    have limit : Config.payloadMax = 200 := rfl
    omega
  · rfl

theorem byte_toNat {n : Nat} (h : n ≤ 200) : (byte n).toNat = n := by
  unfold byte
  rw [BitVec.toNat_ofNat]
  omega

/-- A frame's header and payload, and two bytes after them: the frame when they are its CRC, and none otherwise (R1, R2). -/
theorem frameOf_body (f : Frame) (hi lo : Byte) (h : f.payload.length ≤ 200) :
    frameOf (f.body ++ [hi, lo]) = if [hi, lo] = wordBytes (crc16 f.body) then some f else none := by
  have count := byte_toNat h
  unfold Frame.body frameOf
  simp only [List.cons_append]
  have fits : 2 ≤ (f.payload ++ [hi, lo]).length ∧ (byte f.payload.length).toNat ≤ Config.payloadMax ∧
      (f.payload ++ [hi, lo]).length - 2 = (byte f.payload.length).toNat := by
    rw [count, List.length_append]
    exact ⟨Nat.le_add_left _ _, h, rfl⟩
  rw [if_pos fits, count, List.take_left, List.drop_left]
  simp only [crcAgrees, beq_iff_eq]

theorem frameOf_bytes (f : Frame) (h : f.payload.length ≤ 200) : frameOf f.bytes = some f :=
  (frameOf_body f _ _ h).trans (if_pos rfl)

theorem receive_discarded {bytes : List Byte} (h : frameOf bytes = none) (s : State) : exec (.frameArrival bytes) s = .next s := by
  refine congrArg Host.Outcome.next (outsideReset_same ?_)
  unfold State.receive
  rw [h]

/-- Settles O4: bytes of a wrong length are no frame, and neither are bytes with another CRC. -/
theorem badFramesHaveNoEffect : Obligations.badFramesHaveNoEffect := by
  unfold Obligations.badFramesHaveNoEffect
  refine ⟨fun bytes s h => receive_discarded (frameOf_of_length h) s, fun f hi lo s h wrong => receive_discarded ?_ s⟩
  rw [frameOf_body f hi lo h, if_neg wrong]

/-! ## The command that a good frame is (R3, R4, R167) -/

theorem receive_good {f : Frame} (h : f.payload.length ≤ 200) (s : State) :
    exec (.frameArrival f.bytes) s = .next (s.outsideReset fun s => s.goodFrame f) := by
  have good : ∀ s : State, s.receive f.bytes = s.goodFrame f := fun s => by
    unfold State.receive
    rw [frameOf_bytes f h]
  exact congrArg Host.Outcome.next (congrArg (State.outsideReset · s) (funext good))

/-- A good frame that is sorted to a block has the effect of that block's command. -/
theorem receive_sorted {f : Frame} (h : f.payload.length ≤ 200) {g : State → State} (sorted : ∀ s : State, s.goodFrame f = g s)
    (s : State) : exec (.frameArrival f.bytes) s = .next (s.outsideReset g) :=
  (receive_good h s).trans (congrArg Host.Outcome.next (congrArg (State.outsideReset · s) (funext sorted)))

theorem receive_unsorted {f : Frame} (h : f.payload.length ≤ 200) (unsorted : ∀ s : State, s.goodFrame f = s) (s : State) :
    exec (.frameArrival f.bytes) s = .next s :=
  (receive_good h s).trans (congrArg Host.Outcome.next (outsideReset_same (unsorted s)))

theorem code_of_ofCode {c : Byte} {k : FrameKind} (h : FrameKind.ofCode c = some k) : k.code = c := by
  simpa using List.find?_some h

/-- A frame of the part's own that returns (R3). -/
theorem goodFrame_own {f : Frame} (h : f.source = 0) (s : State) : s.goodFrame f =
    match FrameKind.ofCode f.kind with
    | some .supervision => s.supervisionReturns
    | some .beacon => s.beaconReturns
    | some .claim => s.claimReturns f.seq f.payload
    | _ => s := by
  unfold State.goodFrame
  exact if_pos h

/-- A frame for the part from elsewhere (R4). -/
theorem goodFrame_received {f : Frame} (source : f.source ≠ 0) (dest : f.dest = 0) (s : State) : s.goodFrame f =
    match FrameKind.ofCode f.kind with
    | some .lightSample => s.nodeFrame .light f.source f.seq f.payload
    | some .currentSample => s.nodeFrame .current f.source f.seq f.payload
    | some .position => s.nodeFrame .breaker f.source f.seq f.payload
    | some .request => s.requestFrame f.source f.payload
    | _ => s := by
  unfold State.goodFrame
  exact (if_neg source).trans (if_neg (not_not.2 dest))

theorem goodFrame_own_other {f : Frame} (source : f.source = 0) (h : f.kind ∉ [0x30, 0x31, 0x32]) (s : State) : s.goodFrame f = s := by
  rw [goodFrame_own source]
  split
  case h_4 => rfl
  all_goals
    rename_i e
    exact absurd (code_of_ofCode e ▸ by decide) h

theorem goodFrame_received_other {f : Frame} (source : f.source ≠ 0) (dest : f.dest = 0) (h : f.kind ∉ [0x10, 0x11, 0x12, 0x40])
    (s : State) : s.goodFrame f = s := by
  rw [goodFrame_received source dest]
  split
  case h_5 => rfl
  all_goals
    rename_i e
    exact absurd (code_of_ofCode e ▸ by decide) h

theorem goodFrame_elsewhere {f : Frame} (source : f.source ≠ 0) (dest : f.dest ≠ 0) (s : State) : s.goodFrame f = s := by
  unfold State.goodFrame
  rw [if_neg source, if_pos dest]

theorem goodFrame_request {f : Frame} (source : f.source ≠ 0) (dest : f.dest = 0) (kind : f.kind = 0x40) (s : State) :
    s.goodFrame f = s.requestFrame f.source f.payload := by
  rw [goodFrame_received source dest, kind]
  rfl

theorem requestFrame_short {p : List Byte} (h : p.length < 2) (s : State) (source : Byte) : s.requestFrame source p = s := by
  match p, h with
  | [], _ => rfl
  | [_], _ => rfl

/-- Settles O6: a good frame is sorted by source, destination and kind, and a MGMT_REQUEST is served by its code. -/
theorem goodFramesAreSorted : Obligations.goodFramesAreSorted := by
  unfold Obligations.goodFramesAreSorted
  refine ⟨fun f s h => ⟨fun source => ?_, fun source dest => ?_, fun source dest => ?_⟩, fun f s h source dest kind => ?_⟩
  · have own := goodFrame_own source
    refine ⟨fun k => ?_, fun k => ?_, fun k => ?_, fun k => receive_unsorted h (goodFrame_own_other source k) s⟩
    all_goals
      rw [k] at own
      exact receive_sorted h own s
  · exact receive_unsorted h (goodFrame_elsewhere source dest) s
  · have received := goodFrame_received source dest
    refine ⟨fun k => ?_, fun k => ?_, fun k => ?_, fun k => receive_unsorted h (goodFrame_received_other source dest k) s⟩
    all_goals
      rw [k] at received
      exact receive_sorted h received s
  · have request := goodFrame_request source dest kind
    refine ⟨fun short => receive_unsorted h (fun s => (request s).trans (requestFrame_short short s _)) s, ?_⟩
    intro tag code params payload
    rw [payload] at request
    have served := receive_sorted h request s
    refine ⟨?_, ?_, ?_, ?_, ?_, ?_, ?_, ?_, ?_, ?_, ?_, ?_, ?_, ?_, ?_, fun _ => served⟩
    case refine_11 | refine_12 =>
      rintro sect rfl rfl
      exact served
    all_goals
      rintro rfl
      exact served

end Sys2Proof.Machine
end

section
/-! SUPPORT. The output arbiter (R23): what starts from each queue, and what starts at once at an idle output; the entry to CLAIMING, the
periodic frames, and the frames that wait for room (R7, R13, R17, R22, R24). -/

namespace Sys2Proof.Machine

open Sys2Proof.Safety

/-! ## What the arbiter starts (R5, R8, R23) -/

theorem startNext_trip {s : State} {f : TripFrame} {rest : List TripFrame} (h : s.loop.tripQ = f :: rest) :
    s.startNext = (s.setLoop ({ s.loop with tripQ := rest }.start (.trip f))).clearWaiting f.breaker := by
  unfold State.startNext
  rw [h]

theorem startNext_claim {s : State} {rest : List ControlFrame} (trip : s.loop.tripQ = []) (h : s.loop.controlQ = .claim :: rest) :
    s.startNext = s.setLoop { { s.loop with controlQ := rest }.start (.control .claim) with outstanding := some s.loop.outSeq } := by
  unfold State.startNext
  rw [trip, h]

theorem startNext_control {s : State} {f : ControlFrame} {rest : List ControlFrame} (trip : s.loop.tripQ = [])
    (h : s.loop.controlQ = f :: rest) (other : f ≠ .claim) :
    s.startNext = s.setLoop ({ s.loop with controlQ := rest }.start (.control f)) := by
  unfold State.startNext
  rw [trip, h]
  cases f with
  | claim => exact absurd rfl other
  | supervision => rfl
  | beacon => rfl
  | test f => rfl

theorem startNext_response {s : State} {r : Response} {rest : List Response} (trip : s.loop.tripQ = [])
    (control : s.loop.controlQ = []) (h : s.loop.routineQ = r :: rest) :
    s.startNext = s.setLoop ({ s.loop with routineQ := rest }.start (.response r)) := by
  unfold State.startNext
  rw [trip, control, h]

theorem startNext_none {s : State} (trip : s.loop.tripQ = []) (control : s.loop.controlQ = []) (routine : s.loop.routineQ = []) :
    s.startNext = s.setLoop { s.loop with sending := none } := by
  unfold State.startNext
  rw [trip, control, routine]

/-! ## A frame queued at an idle output starts at once (R23) -/

theorem pushControl_idle {s : State} (idle : s.loop.sending = none) (trip : s.loop.tripQ = []) (control : s.loop.controlQ = [])
    {f : ControlFrame} (other : f ≠ .claim) : s.pushControl f = s.setLoop { s.loop with
      sending := some ⟨.control f, s.loop.outSeq⟩, outSeq := s.loop.outSeq + 1 } := by
  have starts : s.pushControl f = (s.setLoop { s.loop with controlQ := s.loop.controlQ ++ [f] }).startNext := if_pos idle
  have queue : s.loop.controlQ ++ [f] = [f] := by rw [control]; rfl
  rw [starts, startNext_control (s := s.setLoop { s.loop with controlQ := s.loop.controlQ ++ [f] }) trip queue other]
  simp only [State.setLoop, LoopPort.start, control]

theorem pushControl_claim_idle {s : State} (idle : s.loop.sending = none) (trip : s.loop.tripQ = []) (control : s.loop.controlQ = []) :
    s.pushControl .claim = s.setLoop { s.loop with
      sending := some ⟨.control .claim, s.loop.outSeq⟩, outSeq := s.loop.outSeq + 1, outstanding := some s.loop.outSeq } := by
  have starts : s.pushControl .claim = (s.setLoop { s.loop with controlQ := s.loop.controlQ ++ [.claim] }).startNext := if_pos idle
  have queue : s.loop.controlQ ++ [.claim] = [.claim] := by rw [control]; rfl
  rw [starts, startNext_claim (s := s.setLoop { s.loop with controlQ := s.loop.controlQ ++ [.claim] }) trip queue]
  simp only [State.setLoop, LoopPort.start, control]

theorem pushRoutine_idle {s : State} (idle : s.loop.sending = none) (trip : s.loop.tripQ = []) (control : s.loop.controlQ = [])
    (routine : s.loop.routineQ = []) (r : Response) : s.pushRoutine r = s.setLoop { s.loop with
      sending := some ⟨.response r, s.loop.outSeq⟩, outSeq := s.loop.outSeq + 1 } := by
  have starts : s.pushRoutine r = (s.setLoop { s.loop with routineQ := s.loop.routineQ ++ [r] }).startNext := if_pos idle
  have queue : s.loop.routineQ ++ [r] = [r] := by rw [routine]; rfl
  rw [starts, startNext_response (s := s.setLoop { s.loop with routineQ := s.loop.routineQ ++ [r] }) trip control queue]
  simp only [State.setLoop, LoopPort.start, routine]

/-! ## The waiting CLAIM frame (R7, R8) -/

theorem controlRoom_iff (s : State) : s.controlRoom = true ↔ s.loop.controlQ.length < 4 := by
  simp [State.controlRoom, Config.controlCapacity]

theorem routineRoom_iff (s : State) : s.routineRoom = true ↔ s.loop.routineQ.length < 4 := by
  simp [State.routineRoom, Config.routineCapacity]

theorem queueWaitingClaim_room {s : State} (waiting : s.loop.claimWaiting = true) (room : s.loop.controlQ.length < 4) :
    s.queueWaitingClaim = (s.setLoop { s.loop with claimWaiting := false }).pushControl .claim := by
  unfold State.queueWaitingClaim
  rw [if_pos]
  rw [waiting, (controlRoom_iff s).2 room]
  rfl

theorem queueWaitingClaim_none {s : State} (h : s.loop.claimWaiting = false ∨ 4 ≤ s.loop.controlQ.length) :
    s.queueWaitingClaim = s := by
  unfold State.queueWaitingClaim
  rw [if_neg]
  rw [Bool.and_eq_true, controlRoom_iff]
  rintro ⟨waiting, room⟩
  rcases h with h | h
  · rw [h] at waiting
    cases waiting
  · omega

/-- Settles O8, by the room in the CONTROL queue and the output. -/
theorem claimingEntry : Obligations.claimingEntry := by
  unfold Obligations.claimingEntry
  intro s tests entered
  refine ⟨fun busy room => ?_, fun full => ?_, fun idle trip none => ?_⟩
  · exact (queueWaitingClaim_room (s := s.setLoop s.loop.toClaiming) rfl room).trans
      (pushControl_busy (s := (s.setLoop s.loop.toClaiming).setLoop { s.loop.toClaiming with claimWaiting := false }) busy .claim)
  · exact queueWaitingClaim_none (s := s.setLoop s.loop.toClaiming) (.inr full)
  · have room : tests.length < 4 := by rw [none]; exact Nat.zero_lt_succ _
    have control : s.loop.toClaiming.controlQ = [] := none
    refine (queueWaitingClaim_room (s := s.setLoop s.loop.toClaiming) rfl room).trans ?_
    refine (pushControl_claim_idle (s := (s.setLoop s.loop.toClaiming).setLoop { s.loop.toClaiming with claimWaiting := false })
      idle trip control).trans ?_
    simp only [State.setLoop, LoopPort.toClaiming, entered]
    rw [show s.loop.controlQ.filter ControlFrame.isTest = [] from none]

/-! ## Returning frames and RECLAIM (R14, R17, R18) -/

/-- A request that is taken and answered at once (R167). -/
theorem takeRequest_answered {s t : State} {source : Byte} (takes : Takes s source) {serve : State → Served} {r : Result}
    {data : List Byte} (h : serve s = (t, some (r, data))) (tag code : Byte) :
    s.takeRequest source tag code serve = t.respond ⟨source, tag, code, r, data⟩ := by
  obtain ⟨-, known, held, pending⟩ := takes
  unfold State.takeRequest
  rw [if_neg (by rw [held, pending]; simpa using known), h]

/-- Settles O7, by the loop state. -/
theorem returningFramesByLoopState : Obligations.returningFramesByLoopState := by
  unfold Obligations.returningFramesByLoopState
  intro s up
  have outside : ∀ f, Host.Outcome.next (s.outsideReset f) = (.next (f s) : Outcome) := fun f => congrArg _ (outsideReset_up up f)
  refine ⟨fun h => (outside _).trans ?_, fun h => (outside _).trans ?_, fun h => (outside _).trans ?_, fun h => (outside _).trans ?_,
    fun source tag takes => (outside _).trans ?_⟩
  · exact congrArg _ (if_pos h)
  · exact congrArg _ (if_neg h)
  · exact congrArg _ (if_pos h)
  · exact congrArg _ (if_neg h)
  · exact congrArg _ (takeRequest_answered takes rfl tag 0x30)

/-! ## The periodic frames (R13, R17, R24) -/

theorem queueOrSkip_busy {s : State} (busy : Busy s) (room : s.loop.controlQ.length < 4) (f : ControlFrame) :
    s.queueOrSkip f = s.setLoop { s.loop with controlQ := s.loop.controlQ ++ [f] } :=
  (if_pos ((controlRoom_iff s).2 room)).trans (pushControl_busy busy f)

theorem queueOrSkip_full {s : State} (full : 4 ≤ s.loop.controlQ.length) (f : ControlFrame) : s.queueOrSkip f = s :=
  if_neg fun room => absurd ((controlRoom_iff s).1 room) (by omega)

theorem queueOrSkip_idle {s : State} (idle : s.loop.sending = none) (trip : s.loop.tripQ = []) (control : s.loop.controlQ = [])
    {f : ControlFrame} (other : f ≠ .claim) : s.queueOrSkip f = s.setLoop { s.loop with
      sending := some ⟨.control f, s.loop.outSeq⟩, outSeq := s.loop.outSeq + 1 } :=
  (if_pos ((controlRoom_iff s).2 (by rw [control]; exact Nat.zero_lt_succ _))).trans (pushControl_idle idle trip control other)

/-- A frame offered to the CONTROL queue of a Loop Port: queued, skipped, or started at once (R23, R24). -/
theorem setLoop_queueOrSkip (s : State) (l : LoopPort) {f : ControlFrame} (other : f ≠ .claim) :
    (l.sending ≠ none → l.controlQ.length < 4 →
      (s.setLoop l).queueOrSkip f = s.setLoop { l with controlQ := l.controlQ ++ [f] }) ∧
    (4 ≤ l.controlQ.length → (s.setLoop l).queueOrSkip f = s.setLoop l) ∧
    (l.sending = none → l.tripQ = [] → l.controlQ = [] → (s.setLoop l).queueOrSkip f = s.setLoop { l with
      sending := some ⟨.control f, l.outSeq⟩, outSeq := l.outSeq + 1 }) :=
  ⟨fun busy room => queueOrSkip_busy (s := s.setLoop l) busy room f, fun full => queueOrSkip_full (s := s.setLoop l) full f,
    fun idle trip control => queueOrSkip_idle (s := s.setLoop l) idle trip control other⟩

/-- Settles O10: the timer starts again, and the frame is queued, skipped, or started. -/
theorem periodicFrames : Obligations.periodicFrames := by
  unfold Obligations.periodicFrames
  intro s up
  have outside : ∀ f, Host.Outcome.next (s.outsideReset f) = (.next (f s) : Outcome) := fun f => congrArg _ (outsideReset_up up f)
  refine ⟨fun running => ?_, fun running => ?_⟩
  · have expires : exec .supervisionSendTimerExpiry s =
        .next ((s.setLoop { s.loop with sendTimer := .running 10 }).queueOrSkip .supervision) :=
      (outside _).trans (congrArg _ (if_pos running))
    obtain ⟨queued, skipped, started⟩ := setLoop_queueOrSkip s { s.loop with sendTimer := .running 10 }
      (f := .supervision) (by exact nofun)
    exact ⟨fun busy room => expires.trans (congrArg _ (queued busy room)), fun full => expires.trans (congrArg _ (skipped full)),
      fun idle trip control => expires.trans (congrArg _ (started idle trip control))⟩
  · have expires : exec .beaconTimerExpiry s =
        .next ((s.setLoop { s.loop with beaconTimer := .running 20 }).queueOrSkip .beacon) :=
      (outside _).trans (congrArg _ (if_pos running))
    obtain ⟨queued, skipped, started⟩ := setLoop_queueOrSkip s { s.loop with beaconTimer := .running 20 }
      (f := .beacon) (by exact nofun)
    exact ⟨fun busy room => expires.trans (congrArg _ (queued busy room)), fun full => expires.trans (congrArg _ (skipped full)),
      fun idle trip control => expires.trans (congrArg _ (started idle trip control))⟩

/-! ## Frames that wait for room (R24, R136, R168) -/

theorem queueHeldTests_claim {s : State} (waiting : s.loop.claimWaiting = true) : s.queueHeldTests = s := if_pos waiting

theorem queueHeldTests_free {s : State} (h : s.loop.claimWaiting = false) : s.queueHeldTests = s.offerHeldTests s.lens.held.length :=
  if_neg (by simp [h])

/-- Settles O13, by the room in each queue. -/
theorem waitingFramesTakeRoom : Obligations.waitingFramesTakeRoom := by
  unfold Obligations.waitingFramesTakeRoom
  refine ⟨fun s up busy => ?_, fun s r => ⟨fun busy room => ?_, fun idle trip control routine => ?_, fun full => ?_⟩⟩
  · have outside : ∀ f, Host.Outcome.next (s.outsideReset f) = (.next (f s) : Outcome) := fun f => congrArg _ (outsideReset_up up f)
    refine ⟨fun waiting room => (outside _).trans (congrArg _ ?_), fun none => (outside _).trans (congrArg _ ?_),
      fun waiting => (outside _).trans (congrArg _ ?_), fun free => (outside _).trans (congrArg _ ?_),
      (outside _).trans (congrArg _ ?_)⟩
    · exact (queueWaitingClaim_room waiting room).trans
        (pushControl_busy (s := s.setLoop { s.loop with claimWaiting := false }) busy .claim)
    · exact queueWaitingClaim_none none
    · exact queueHeldTests_claim waiting
    · exact (queueHeldTests_free free).trans (offerHeldTests_busy _ busy (le_refl _))
    · exact offerHeldResponses_busy _ busy (le_refl _)
  · exact (if_pos ((routineRoom_iff s).2 room)).trans (pushRoutine_busy busy r)
  · have room : s.routineRoom = true := (routineRoom_iff s).2 (by rw [routine]; exact Nat.zero_lt_succ _)
    exact (if_pos room).trans (pushRoutine_idle idle trip control routine r)
  · exact if_neg fun room => absurd ((routineRoom_iff s).1 room) (by omega)

/-! ## What waits, at an idle output (R7, R24, R136, R168) -/

/-- With nothing queued a waiting CLAIM frame starts at once, and the rest take the room behind it. -/
theorem settleRoom_claim {s : State} (idle : s.loop.sending = none) (trip : s.loop.tripQ = []) (control : s.loop.controlQ = [])
    (waiting : s.loop.claimWaiting = true) : s.settleRoom = s.offered { s.loop with
      claimWaiting := false, sending := some ⟨.control .claim, s.loop.outSeq⟩, outSeq := s.loop.outSeq + 1,
      outstanding := some s.loop.outSeq } s.lens.held s.agent.held := by
  have starts := (queueWaitingClaim_room waiting (by rw [control]; exact Nat.zero_lt_succ _)).trans
    (pushControl_claim_idle (s := s.setLoop { s.loop with claimWaiting := false }) idle trip control)
  have settled : s.settleRoom = s.queueWaitingClaim.settleRoom := by
    unfold State.settleRoom State.tellControlRoom
    rw [starts, queueWaitingClaim_none (.inl rfl)]
  rw [settled, starts, settleRoom_busy (by exact nofun)]
  rfl

/-- With nothing queued and no CLAIM frame waiting the first held TEST frame leaves the list and starts at once. -/
theorem queueHeldTests_idle {s : State} (idle : s.loop.sending = none) (trip : s.loop.tripQ = []) (control : s.loop.controlQ = [])
    (free : s.loop.claimWaiting = false) {f : TestFrame} {rest : List TestFrame} (held : s.lens.held = f :: rest) :
    s.queueHeldTests = ((s.setLens { s.lens with held := rest }).setLoop { s.loop with
      sending := some ⟨.control (.test f), s.loop.outSeq⟩, outSeq := s.loop.outSeq + 1 }).queueHeldTests := by
  have room : s.controlRoom = true := (controlRoom_iff s).2 (by rw [control]; exact Nat.zero_lt_succ _)
  rw [queueHeldTests_free free, held, List.length_cons]
  refine Eq.trans ?_ (queueHeldTests_free (s := (s.setLens { s.lens with held := rest }).setLoop { s.loop with
    sending := some ⟨.control (.test f), s.loop.outSeq⟩, outSeq := s.loop.outSeq + 1 }) free).symm
  conv_lhs => unfold State.offerHeldTests
  rw [held]
  dsimp only
  rw [if_pos room, pushControl_idle (s := s.setLens { s.lens with held := rest }) idle trip control (by exact nofun)]
  rfl

theorem settleRoom_test {s : State} (idle : s.loop.sending = none) (trip : s.loop.tripQ = []) (control : s.loop.controlQ = [])
    (free : s.loop.claimWaiting = false) {f : TestFrame} {rest : List TestFrame} (held : s.lens.held = f :: rest) :
    s.settleRoom = s.offered { s.loop with
      sending := some ⟨.control (.test f), s.loop.outSeq⟩, outSeq := s.loop.outSeq + 1 } rest s.agent.held := by
  set t := (s.setLens { s.lens with held := rest }).setLoop { s.loop with
    sending := some ⟨.control (.test f), s.loop.outSeq⟩, outSeq := s.loop.outSeq + 1 } with ht
  have settled : s.settleRoom = t.settleRoom := by
    unfold State.settleRoom State.tellControlRoom
    rw [queueWaitingClaim_none (.inl free), queueWaitingClaim_none (s := t) (.inl free),
      queueHeldTests_idle idle trip control free held]
  rw [settled, settleRoom_busy (s := t) (by exact nofun)]
  rfl

/-- With nothing queued and neither a CLAIM frame nor a TEST frame waiting the first held response starts at once. -/
theorem settleRoom_response {s : State} (idle : s.loop.sending = none) (trip : s.loop.tripQ = []) (control : s.loop.controlQ = [])
    (routine : s.loop.routineQ = []) (free : s.loop.claimWaiting = false) (none : s.lens.held = []) {r : Response}
    {rest : List Response} (held : s.agent.held = r :: rest) : s.settleRoom = s.offered { s.loop with
      sending := some ⟨.response r, s.loop.outSeq⟩, outSeq := s.loop.outSeq + 1 } [] rest := by
  set t := ({ s with agent := { s.agent with held := rest } } : State).setLoop { s.loop with
    sending := some ⟨.response r, s.loop.outSeq⟩, outSeq := s.loop.outSeq + 1 } with ht
  have told : ∀ u : State, u.loop.claimWaiting = false → u.lens.held = [] → u.tellControlRoom = u := by
    intro u free none
    unfold State.tellControlRoom
    rw [queueWaitingClaim_none (.inl free), queueHeldTests_free free, none]
    rfl
  have first : s.queueHeldResponses = t.queueHeldResponses := by
    have room : s.routineRoom = true := (routineRoom_iff s).2 (by rw [routine]; exact Nat.zero_lt_succ _)
    unfold State.queueHeldResponses
    rw [held, List.length_cons]
    conv_lhs => unfold State.offerHeldResponses
    rw [held]
    dsimp only
    rw [if_pos room, pushRoutine_idle (s := { s with agent := { s.agent with held := rest } }) idle trip control routine]
    rfl
  have settled : s.settleRoom = t.settleRoom := by
    unfold State.settleRoom
    rw [told s free none, told t free none, first]
  rw [settled, settleRoom_busy (s := t) (by exact nofun), show t.lens.held = [] from none]
  rfl

/-- With nothing waiting nothing starts. -/
theorem settleRoom_nothing {s : State} (free : s.loop.claimWaiting = false) (tests : s.lens.held = []) (responses : s.agent.held = []) :
    s.settleRoom = s := by
  unfold State.settleRoom State.tellControlRoom State.queueHeldResponses
  rw [queueWaitingClaim_none (.inl free), queueHeldTests_free free, tests, List.length_nil]
  unfold State.offerHeldTests
  rw [responses]
  rfl

/-- Settles O12, by the head of the queues, and with nothing queued by what waits. -/
theorem outputArbitration : Obligations.outputArbitration := by
  unfold Obligations.outputArbitration
  intro s x up sending soft timed started offered answers tests responses
  have completes : exec .sendingComplete s = .next ((s.setLoop timed).startNext.settleRoom) := by
    have sent : s.claimSent x = s.setLoop timed := by
      unfold State.claimSent
      simp only [timed]
      split <;> rfl
    refine (congrArg Host.Outcome.next (outsideReset_up up _)).trans (congrArg _ ?_)
    unfold State.sendingCompletes
    rw [sending]
    simp only [soft]
    rw [if_neg (by exact nofun), sent]
  obtain ⟨tripQ, controlQ, routineQ, outSeq, waiting, outstanding⟩ : timed.tripQ = s.loop.tripQ ∧
      timed.controlQ = s.loop.controlQ ∧ timed.routineQ = s.loop.routineQ ∧ timed.outSeq = s.loop.outSeq ∧
      timed.claimWaiting = s.loop.claimWaiting ∧ timed.outstanding = s.loop.outstanding := by
    simp only [timed]
    split <;> exact ⟨rfl, rfl, rfl, rfl, rfl, rfl⟩
  clear_value timed
  have busy : ∀ {t u : State}, (s.setLoop timed).startNext = t → t.loop.sending ≠ none →
      State.offered t t.loop t.lens.held t.agent.held = u → answers u := fun starts busy settles =>
    completes.trans (congrArg _ ((congrArg State.settleRoom starts).trans ((settleRoom_busy busy).trans settles)))
  refine ⟨fun f rest h => ?_, fun f rest trip h => ?_, fun r rest trip control h => ?_, fun trip control routine => ?_⟩
  · refine busy (startNext_trip (s := s.setLoop timed) (tripQ.trans h)) nofun ?_
    simp only [started, offered, ← outSeq]
    rfl
  · by_cases claim : f = .claim
    · subst claim
      refine busy (startNext_claim (s := s.setLoop timed) (tripQ.trans trip) (controlQ.trans h)) nofun ?_
      simp only [started, offered, ← outSeq, if_true]
      rfl
    · refine busy (startNext_control (s := s.setLoop timed) (tripQ.trans trip) (controlQ.trans h) claim) nofun ?_
      simp only [started, offered, ← outSeq, ← outstanding, if_neg claim]
      rfl
  · refine busy (startNext_response (s := s.setLoop timed) (tripQ.trans trip) (controlQ.trans control) (routineQ.trans h)) nofun ?_
    simp only [started, offered, ← outSeq]
    rfl
  · have idle := startNext_none (s := s.setLoop timed) (tripQ.trans trip) (controlQ.trans control) (routineQ.trans routine)
    have settles : ∀ {u : State}, (s.setLoop { timed with sending := none }).settleRoom = u → answers u := fun h =>
      completes.trans (congrArg _ ((congrArg State.settleRoom idle).trans h))
    refine ⟨fun claim => settles ?_, fun f rest free held => settles ?_, fun r rest free noTests held => settles ?_,
      fun free noTests held => settles ?_⟩
    · refine (settleRoom_claim (s := s.setLoop { timed with sending := none }) rfl (tripQ.trans trip) (controlQ.trans control)
        (waiting.trans claim)).trans ?_
      simp only [started, offered, ← outSeq]
      rfl
    · refine (settleRoom_test (s := s.setLoop { timed with sending := none }) rfl (tripQ.trans trip) (controlQ.trans control)
        (waiting.trans free) held).trans ?_
      simp only [started, offered, ← outSeq]
      rfl
    · refine (settleRoom_response (s := s.setLoop { timed with sending := none }) rfl (tripQ.trans trip) (controlQ.trans control)
        (routineQ.trans routine) (waiting.trans free) noTests held).trans ?_
      simp only [started, offered, ← outSeq]
      rfl
    · exact settleRoom_nothing (s := s.setLoop { timed with sending := none }) (waiting.trans free) noTests held

end Sys2Proof.Machine
end

section
/-! SUPPORT. The timers of an order and of a trip line when they expire (R115, R119, R124), escalation (R120, R122), and a hard reset
while it lasts (R190). -/

namespace Sys2Proof.Machine

open Sys2Proof.Safety

/-! ## Resends (R114, R115) -/

/-- Two changes of the order on a breaker, one after the other. -/
theorem updateOrder_updateOrder (s : State) (b : Nat) (f g : Order → Order) (hf : ∀ o, (f o).breaker = o.breaker) :
    (s.updateOrder b f).updateOrder b g = s.updateOrder b fun o => g (f o) := by
  unfold State.updateOrder State.setOrders
  simp only [List.map_map]
  congr 2
  refine List.map_congr_left fun o _ => ?_
  by_cases h : o.breaker = b <;> simp [h, hf]

/-- A send is attempted and all its conditions hold (R114). -/
theorem attemptSend_sends {s : State} {b n : Nat} {o : Order} (ho : s.order b = some o) (node : (s.tables.breaker b).nodeOf = some n)
    (h : (o.unopened && !s.isCut b && !o.waiting && s.tripRoom) = true) :
    s.attemptSend b = (s.updateOrder b fun o => { o with waiting := true }).pushTrip (s.tripFrame o n) := by
  unfold State.attemptSend
  rw [ho, node]
  exact if_pos h

/-- A send is attempted and one of its conditions fails (R114). -/
theorem attemptSend_not {s : State} {b : Nat} {o : Order} (ho : s.order b = some o)
    (h : (s.tables.breaker b).nodeOf = none ∨ (o.unopened && !s.isCut b && !o.waiting && s.tripRoom) = false) :
    s.attemptSend b = s := by
  unfold State.attemptSend
  rw [ho]
  cases node : (s.tables.breaker b).nodeOf with
  | none => rfl
  | some n =>
    rw [node] at h
    exact if_neg (by rw [h.resolve_left nofun]; exact Bool.false_ne_true)

/-- The resend timer of an order starts again, and a send is attempted for the order with it (R115). -/
theorem resendExpiry_running {s : State} {b : Nat} {o : Order} (ho : s.order b = some o) (running : o.resend.isRunning = true) :
    s.resendExpiry b = (s.updateOrder b fun o => { o with resend := .running 20 }).attemptSend b := by
  unfold State.resendExpiry
  rw [ho]
  exact if_pos running

theorem order_resent {s : State} {b : Nat} {o : Order} (ho : s.order b = some o) :
    (s.updateOrder b fun o => { o with resend := .running 20 }).order b = some { o with resend := .running 20 } := by
  rw [order_updateOrder s b b (fun o => { o with resend := .running 20 }) fun _ => rfl, if_pos rfl, ho]
  rfl

/-! ## The minimum-pulse timer (R124) -/

theorem lineHeld_iff (s : State) (l : Nat) :
    s.lineHeld l = true ↔ ∃ o ∈ s.trip.orders, o.state ≠ .opened ∧ s.lineOf o.breaker = some l := by
  have unopened : ∀ o : Order, o.unopened = true ↔ o.state ≠ .opened := fun o => by
    unfold Order.unopened
    cases o.state <;> simp
  simp [State.lineHeld, unopened]

theorem pulseExpiry_running {s : State} {l : Nat} (running : (s.line l).pulse.isRunning = true) (active : (s.line l).active = true) :
    s.pulseExpiry l = s.setLine l ⟨s.lineHeld l, .stopped⟩ := by
  unfold State.pulseExpiry
  rw [if_pos running, active, Bool.true_and]

/-- Settles O25: the conditions of a send, at a busy and at an idle output, and the orders held on the line. -/
theorem resendsAndPulses : Obligations.resendsAndPulses := by
  unfold Obligations.resendsAndPulses
  refine ⟨fun s b o up ho running => ?_, fun s l up running active => ?_⟩
  · intro sendable
    have expires : exec (.resendTimerExpiry b) s =
        .next ((s.updateOrder b fun o => { o with resend := .running 20 }).attemptSend b) :=
      congrArg Host.Outcome.next ((outsideReset_up up _).trans (resendExpiry_running ho running))
    have resent := order_resent ho
    refine ⟨fun n node sends => ?_, fun fails => expires.trans (congrArg _ (attemptSend_not resent fails))⟩
    intro f
    have frame : (s.updateOrder b fun o => { o with resend := .running 20 }).tripFrame { o with resend := .running 20 } n = f := by
      have := order_breaker ho
      subst this
      rfl
    have sent := attemptSend_sends resent node sends
    rw [updateOrder_updateOrder s b (fun o => { o with resend := .running 20 }) (fun o => { o with waiting := true }) fun _ => rfl,
      frame] at sent
    refine ⟨fun busy => ?_, fun idle empty => ?_⟩
    · exact expires.trans (congrArg _ (sent.trans (pushTrip_busy (s := s.updateOrder b _) busy f)))
    · refine expires.trans (congrArg _ (sent.trans ((pushTrip_idle (s := s.updateOrder b _) idle empty f).trans ?_)))
      exact updateOrder_updateOrder (s.setLoop { s.loop with
        sending := some ⟨.trip f, s.loop.outSeq⟩, outSeq := s.loop.outSeq + 1 }) b
        (fun o => { o with resend := .running 20, waiting := true }) (fun o => { o with waiting := false }) fun _ => rfl
  · have expires : exec (.minimumPulseTimerExpiry l) s = .next (s.setLine l ⟨s.lineHeld l, .stopped⟩) :=
      congrArg Host.Outcome.next ((outsideReset_up up _).trans (pulseExpiry_running running active))
    refine ⟨fun none => ?_, fun held => ?_⟩
    · have free : s.lineHeld l = false := by
        rw [← Bool.not_eq_true, lineHeld_iff]
        rintro ⟨o, ho, state, line⟩
        exact (none o ho).elim state fun h => h line
      rw [expires, free]
    · rw [expires, (lineHeld_iff s l).2 held]

/-! ## Failure and escalation (R119, R120, R122) -/

/-- The order on a breaker fails and escalates: the depth limit, no backups, or its backups in list order. -/
theorem failWith_eq {s : State} {b : Nat} {o : Order} (ho : s.order b = some o) (reason : FailReason) :
    s.failWith State.ask b reason =
      if 2 ≤ o.depth then (s.markFailed o reason).record (orderRecord .escalationExhausted o 1)
      else if (s.tables.breaker b).backupList = [] then (s.markFailed o reason).record (orderRecord .escalationExhausted o 2)
      else (s.tables.breaker b).backupList.foldl (fun s b' => s.ask b' o.causes (o.depth + 1)) (s.markFailed o reason) := by
  obtain rfl := order_breaker ho
  unfold State.failWith
  rw [ho]
  rfl

/-- Settles O26, by the depth and the backups of the order. -/
theorem failuresEscalate : Obligations.failuresEscalate := by
  unfold Obligations.failuresEscalate
  intro s b o ho body failed backups escalated
  have fails : ∀ reason : FailReason, s.failWith State.ask b reason = escalated reason.code := fun reason => by
    have := order_breaker ho
    subst this
    exact failWith_eq ho reason
  refine ⟨fun up issued running => ?_, fun issued cut line => ?_, fun stands => ?_⟩
  · refine congrArg Host.Outcome.next ((outsideReset_up up _).trans ?_)
    unfold State.failureExpiry State.failOrder
    rw [ho]
    exact (if_pos ⟨issued, running⟩).trans (fails .timer)
  · unfold State.enterCut State.failIfCut State.cutWithoutLine
    rw [ho, cut, line]
    exact (if_pos issued).trans (fails .cut)
  · unfold State.enterCut State.failIfCut
    rw [ho]
    dsimp only
    split
    · rename_i issued
      refine if_neg ?_
      simp only [State.cutWithoutLine, Bool.and_eq_true, decide_eq_true_eq]
      rintro ⟨cut, line⟩
      rcases stands with h | h | h
      · exact h issued
      · rw [h] at cut
        cases cut
      · exact h line
    · rfl

/-! ## During a hard reset (R190) -/

/-- A hard reset in progress remembers a dip. -/
theorem beginHardReset_again {s : State} {dipped below : Bool} (h : s.hardReset = some ⟨dipped, below⟩) (d : Bool) :
    s.beginHardReset d = { s with hardReset := some ⟨dipped || d, below⟩ } := by
  unfold State.beginHardReset
  rw [h]

theorem beginHardReset_up {s : State} (up : Up s) (d : Bool) : s.beginHardReset d = { s with
    hardReset := some ⟨d, false⟩
    loop := { s.loop with sending := none, tripQ := [], controlQ := [], routineQ := [] }
    trip := { s.trip with orders := [], lines := Vector.replicate _ .reset } } := by
  unfold State.beginHardReset
  rw [up]

theorem endHardReset_low {s : State} {mv : Nat} (h : mv ≤ 2700) : s.endHardReset mv = s := by
  unfold State.endHardReset
  split
  · exact if_neg (Nat.not_lt.2 h)
  · rfl

theorem sameReset {s : State} {h : HardReset} (e : s.hardReset = some h) : { s with hardReset := some h } = s := by
  rw [← e]

/-- Settles O45: what begins a hard reset, what acts in one, and nothing else. -/
theorem hardResetBegins : Obligations.hardResetBegins := by
  unfold Obligations.hardResetBegins
  intro s begun
  refine ⟨fun up => ⟨?_, ?_, ?_⟩, fun dipped below h => ⟨?_, ?_, ?_, fun mv low => ?_, fun c notDip notBelow notEnd => ?_⟩⟩
  · exact congrArg Host.Outcome.next (beginHardReset_up up true)
  · exact congrArg Host.Outcome.next (beginHardReset_up up false)
  · refine congrArg Host.Outcome.next ?_
    unfold State.loseRetention
    rw [beginHardReset_up up true]
    rfl
  · exact congrArg Host.Outcome.next ((beginHardReset_again h true).trans (by rw [Bool.or_true]))
  · refine congrArg Host.Outcome.next ((beginHardReset_again h false).trans ?_)
    rw [Bool.or_false]
    exact sameReset h
  · refine congrArg Host.Outcome.next ?_
    unfold State.loseRetention
    rw [beginHardReset_again h true, Bool.or_true]
    rfl
  · exact congrArg Host.Outcome.next (endHardReset_low low)
  · have idle : ∀ f, Host.Outcome.next (s.outsideReset f) = (.next s : Outcome) := fun f =>
      congrArg _ (outsideReset_down (by simp [h]) f)
    cases c
    case supplyDipReset => exact absurd rfl notDip
    case supplyBelowRetention => exact absurd rfl notBelow
    case hardResetEnd mv => exact absurd rfl (notEnd mv)
    case resetnLow =>
      refine congrArg Host.Outcome.next ((beginHardReset_again h false).trans ?_)
      rw [Bool.or_false]
      exact sameReset h
    all_goals exact idle _

end Sys2Proof.Machine
end

section
/-! SUPPORT. The claim's comparison (R10): the first position at which two lists differ, and the configured sequence as the node
entries in the order of their loop positions. -/

namespace Sys2Proof.Machine

open Sys2Proof.Safety

/-! ## The first difference of two lists -/

/-- Two lists agree before place `k`, counted from 0, and differ there. -/
def DifferFirstAt (as bs : List Byte) (k : Nat) : Prop := as[k]? ≠ bs[k]? ∧ ∀ q, q < k → as[q]? = bs[q]?

theorem differFirstAt_zero {as bs : List Byte} (heads : as[0]? ≠ bs[0]?) (k : Nat) : DifferFirstAt as bs k ↔ k = 0 := by
  constructor
  · intro ⟨_, before⟩
    exact Nat.eq_zero_of_not_pos fun later => heads (before 0 later)
  · rintro rfl
    exact ⟨heads, fun q early => absurd early (Nat.not_lt_zero q)⟩

theorem differFirstAt_cons (a : Byte) (as bs : List Byte) (k : Nat) :
    DifferFirstAt (a :: as) (a :: bs) k ↔ ∃ j, k = j + 1 ∧ DifferFirstAt as bs j := by
  constructor
  · intro ⟨differ, before⟩
    cases k with
    | zero => exact absurd rfl differ
    | succ j => exact ⟨j, rfl, differ, fun q early => before (q + 1) (Nat.succ_lt_succ early)⟩
  · rintro ⟨j, rfl, differ, before⟩
    refine ⟨differ, fun q early => ?_⟩
    cases q with
    | zero => rfl
    | succ q => exact before q (Nat.lt_of_succ_lt_succ early)

theorem firstDifference_none (as bs : List Byte) (i : Nat) : firstDifference as bs i = none ↔ as = bs := by
  induction as generalizing bs i with
  | nil => cases bs <;> simp [firstDifference]
  | cons a as ih =>
    cases bs with
    | nil => simp [firstDifference]
    | cons b bs =>
      unfold firstDifference
      split
      next same => rw [ih, same, List.cons.injEq, and_iff_right rfl]
      next differ => simp [differ]

/-- Lists that differ at their heads differ first there. -/
theorem differ_atHead {as bs : List Byte} (heads : as[0]? ≠ bs[0]?) (i p : Nat) :
    some i = some p ↔ ∃ k, p = i + k ∧ DifferFirstAt as bs k := by
  simp only [differFirstAt_zero heads, Option.some.injEq, exists_eq_right, Nat.add_zero, eq_comm]

theorem firstDifference_some (as bs : List Byte) (i p : Nat) :
    firstDifference as bs i = some p ↔ ∃ k, p = i + k ∧ DifferFirstAt as bs k := by
  induction as generalizing bs i with
  | nil =>
    cases bs with
    | nil => simp [firstDifference, DifferFirstAt]
    | cons b bs => exact differ_atHead (by simp) i p
  | cons a as ih =>
    cases bs with
    | nil => exact differ_atHead (by simp) i p
    | cons b bs =>
      unfold firstDifference
      split
      next same =>
        subst same
        simp only [ih, differFirstAt_cons]
        constructor
        · rintro ⟨k, rfl, differ⟩
          exact ⟨k + 1, by omega, k, rfl, differ⟩
        · rintro ⟨_, rfl, k, rfl, differ⟩
          exact ⟨k, by omega, differ⟩
      next differ => exact differ_atHead (by simpa using differ) i p

theorem compareClaim_unconfigured {s : State} (mode : s.agent.mode = .unconfigured) (list : List Byte) :
    s.compareClaim list = .unchecked := by
  unfold State.compareClaim
  exact if_pos mode

theorem compareClaim_protecting {s : State} (mode : s.agent.mode = .protecting) (list : List Byte) :
    s.compareClaim list = match firstDifference list s.configuredSequence 1 with
      | none => .matched
      | some p => .mismatch p := by
  unfold State.compareClaim
  exact if_neg (by rw [mode]; decide)

theorem compareClaim_matched {s : State} (mode : s.agent.mode = .protecting) (list : List Byte) :
    s.compareClaim list = .matched ↔ list = s.configuredSequence := by
  rw [compareClaim_protecting mode, ← firstDifference_none _ _ 1]
  cases firstDifference list s.configuredSequence 1 <;> simp

theorem compareClaim_mismatch {s : State} (mode : s.agent.mode = .protecting) (list : List Byte) (p : Nat) :
    s.compareClaim list = .mismatch p ↔ 1 ≤ p ∧ DifferFirstAt list s.configuredSequence (p - 1) := by
  have named : s.compareClaim list = .mismatch p ↔ firstDifference list s.configuredSequence 1 = some p := by
    rw [compareClaim_protecting mode]
    cases firstDifference list s.configuredSequence 1 <;> simp
  rw [named, firstDifference_some]
  constructor
  · rintro ⟨k, rfl, differ⟩
    exact ⟨Nat.le_add_right 1 k, by rwa [Nat.add_sub_cancel_left]⟩
  · rintro ⟨from1, differ⟩
    exact ⟨p - 1, by omega, differ⟩

/-! ## The configured sequence -/

theorem failureOf_none {table : TableId} {check : Nat} {used ok : Nat → Bool} (h : failureOf table check used ok = none) {i : Nat}
    (small : i < table.size) (inUse : used i = true) : ok i = true := by
  unfold failureOf at h
  rw [Option.map_eq_none_iff, List.find?_eq_none] at h
  have passed := h i (List.mem_range.2 small)
  rw [inUse, Bool.true_and, Bool.not_eq_true', Bool.not_eq_false] at passed
  exact passed

theorem validated_nodeOk {t : Tables} (h : Validated t) {i : Nat} (small : i < 48) (inUse : t.nodeUsed i = true) :
    t.nodeOk i = true :=
  failureOf_none (Option.or_eq_none_iff.1 h).1 small inUse

theorem nodeOk_position {t : Tables} {i : Nat} (h : t.nodeOk i = true) :
    (t.node i).position.toNat ≤ 48 ∧ ∀ j, j < i → t.nodeUsed j = true → (t.node j).position ≠ (t.node i).position := by
  unfold Tables.nodeOk at h
  simp only [Bool.and_eq_true, inRange, decide_eq_true_eq, Bool.not_eq_true', lowerHas, List.any_eq_false, List.mem_range] at h
  obtain ⟨⟨⟨⟨_, _, placed⟩, alone⟩, _⟩, _⟩ := h
  exact ⟨placed, fun j lower inUse => fun same => alone j lower ⟨inUse, same⟩⟩

/-- The in-use node entries, from lowest to highest loop position. -/
def entriesByPosition (t : Tables) : List Nat :=
  (List.range 49).flatMap fun p => (List.range 48).filter fun i => t.nodeUsed i && (t.node i).position.toNat = p

theorem configuredSequence_eq (s : State) :
    s.configuredSequence = (entriesByPosition s.tables).map fun i => (s.tables.node i).address :=
  (List.map_flatMap ..).symm

theorem mem_entriesByPosition {t : Tables} (h : Validated t) (i : Nat) :
    i ∈ entriesByPosition t ↔ i < 48 ∧ t.nodeUsed i = true := by
  simp only [entriesByPosition, List.mem_flatMap, List.mem_filter, List.mem_range, Bool.and_eq_true, decide_eq_true_eq]
  constructor
  · rintro ⟨_, _, small, inUse, _⟩
    exact ⟨small, inUse⟩
  · rintro ⟨small, inUse⟩
    have ⟨placed, _⟩ := nodeOk_position (validated_nodeOk h small inUse)
    exact ⟨_, Nat.lt_succ_of_le placed, small, inUse, rfl⟩

/-- Two entries at one position would fail validation (R157), so each position names at most one. -/
theorem entriesByPosition_rising {t : Tables} (h : Validated t) :
    (entriesByPosition t).Pairwise fun i j => (t.node i).position.toNat < (t.node j).position.toNat := by
  unfold entriesByPosition
  rw [List.pairwise_flatMap]
  constructor
  · intro p _
    refine ((List.pairwise_lt_range (n := 48)).filter _).imp_of_mem fun {i j} first second lower => ?_
    simp only [List.mem_filter, List.mem_range, Bool.and_eq_true, decide_eq_true_eq] at first second
    obtain ⟨_, firstUsed, firstAt⟩ := first
    obtain ⟨small, secondUsed, secondAt⟩ := second
    have ⟨_, alone⟩ := nodeOk_position (validated_nodeOk h small secondUsed)
    exact absurd (BitVec.eq_of_toNat_eq (firstAt.trans secondAt.symm)) (alone i lower firstUsed)
  · refine (List.pairwise_lt_range (n := 49)).imp fun {p q} lower i first j second => ?_
    simp only [List.mem_filter, Bool.and_eq_true, decide_eq_true_eq] at first second
    rw [first.2.2, second.2.2]
    exact lower

/-! ## The returning CLAIM frame (R9) -/

theorem claimAddresses_some {payload list : List Byte} (h : claimAddresses payload = some list) :
    ∃ n, payload = n :: list ∧ n.toNat ≤ 48 ∧ list.length = n.toNat := by
  unfold claimAddresses at h
  split at h
  next n addresses =>
    split at h
    next fits =>
      cases h
      exact ⟨n, rfl, fits⟩
    next => cases h
  next => cases h

/-- A count above 48 or one that disagrees with the payload is no claim list (R9). -/
theorem claimAddresses_none {payload : List Byte}
    (h : ∀ n addresses, payload = n :: addresses → 48 < n.toNat ∨ addresses.length ≠ n.toNat) : claimAddresses payload = none := by
  rw [Option.eq_none_iff_forall_ne_some]
  intro list read
  obtain ⟨n, rfl, few, agrees⟩ := claimAddresses_some read
  rcases h n list rfl with many | differs
  · exact absurd few (Nat.not_le.2 many)
  · exact differs agrees

theorem claimReturns_malformed {s : State} {seq : Byte} {payload : List Byte} (h : claimAddresses payload = none) :
    s.claimReturns seq payload = s := by
  unfold State.claimReturns
  rw [h]

theorem claimReturns_stray {s : State} {seq : Byte} {payload : List Byte}
    (h : ¬(s.loop.state = .claiming ∧ s.loop.outstanding = some seq)) : s.claimReturns seq payload = s := by
  unfold State.claimReturns
  split
  · rfl
  · exact if_neg h

theorem claimReturns_outstanding {s : State} {seq : Byte} {payload list : List Byte} (read : claimAddresses payload = some list)
    (h : s.loop.state = .claiming ∧ s.loop.outstanding = some seq) :
    s.claimReturns seq payload = ((s.setLoop { s.loop with
      state := .loopClosed, claimTimer := .stopped, claimList := list, result := s.compareClaim list,
      outstanding := none, supervisionTimer := .running 40, sendTimer := .running 10 }).record
        (claimRecord (s.compareClaim list))) := by
  unfold State.claimReturns
  rw [read]
  exact if_pos h

/-- Settles O9: the claim list is read or the frame is discarded; the comparison by the first place at which the lists differ; the
configured sequence by the entries' positions, which validation holds apart. -/
theorem claimReturn : Obligations.claimReturn := by
  unfold Obligations.claimReturn
  refine ⟨⟨fun seq payload s malformed => ?_, fun seq payload s stray => ?_,
      fun seq n addresses s up claiming named few agrees => ?_⟩,
    fun result => ?_, fun s list => ⟨fun mode => compareClaim_unconfigured mode list, fun mode => ?_, fun valid => ?_⟩⟩
  · have malformed := claimAddresses_none malformed
    exact congrArg Host.Outcome.next (outsideReset_same (claimReturns_malformed malformed))
  · have stray : ¬(s.loop.state = .claiming ∧ s.loop.outstanding = some seq) := fun ⟨claiming, named⟩ =>
      stray.elim (· claiming) (· named)
    exact congrArg Host.Outcome.next (outsideReset_same (claimReturns_stray stray))
  · have read : claimAddresses (n :: addresses) = some addresses := if_pos ⟨few, agrees⟩
    exact congrArg Host.Outcome.next ((outsideReset_up up _).trans (claimReturns_outstanding read ⟨claiming, named⟩))
  · cases result <;> rfl
  · exact ⟨compareClaim_matched mode list, compareClaim_mismatch mode list⟩
  · exact ⟨entriesByPosition s.tables, mem_entriesByPosition valid, entriesByPosition_rising valid, configuredSequence_eq s⟩

end Sys2Proof.Machine
end

section
/-! SUPPORT. The entry to OPEN in its parts (R16): the frames that take the withdrawn frames' room, the new break position and cut set with
the orders that fail (R20, R21, R122), the LOOP_STATE record and the BEACON frame. -/

namespace Sys2Proof.Machine

open Sys2Proof.Safety

/-! ## The break position and the cut set (R20, R21) -/

/-- The highest value of the marked elements, or the start value. -/
theorem foldl_max (mark : Nat → Bool) (value : Nat → Nat) (l : List Nat) (start : Nat) :
    let top := l.foldl (fun p i => if mark i then max p (value i) else p) start
    (start ≤ top ∧ ∀ i ∈ l, mark i = true → value i ≤ top) ∧ (top = start ∨ ∃ i ∈ l, mark i = true ∧ top = value i) := by
  induction l generalizing start with
  | nil => exact ⟨⟨le_refl _, nofun⟩, .inl rfl⟩
  | cons i l ih =>
    rw [List.foldl_cons]
    split
    next marked =>
      obtain ⟨⟨above, all⟩, one⟩ := ih (max start (value i))
      refine ⟨⟨(le_max_left _ _).trans above, fun j mem markedJ => ?_⟩, ?_⟩
      · rcases List.mem_cons.1 mem with rfl | later
        · exact (le_max_right _ _).trans above
        · exact all j later markedJ
      · rcases one with first | ⟨j, mem, markedJ, top⟩
        · rcases max_choice start (value i) with before | now
          · exact .inl (first.trans before)
          · exact .inr ⟨i, List.mem_cons_self, marked, first.trans now⟩
        · exact .inr ⟨j, List.mem_cons_of_mem i mem, markedJ, top⟩
    next unmarked =>
      obtain ⟨⟨above, all⟩, one⟩ := ih start
      refine ⟨⟨above, fun j mem markedJ => ?_⟩, one.imp_right fun ⟨j, mem, top⟩ => ⟨j, List.mem_cons_of_mem i mem, top⟩⟩
      rcases List.mem_cons.1 mem with rfl | later
      · exact absurd markedJ unmarked
      · exact all j later markedJ

theorem breakPosition_highest (s : State) :
    (∀ i, i < 48 → s.tables.nodeUsed i = true → s.nodeLive i = false →
      (s.tables.node i).position.toNat + 1 ≤ s.breakPosition) ∧
    (s.breakPosition = 1 ∨ ∃ i, i < 48 ∧ s.tables.nodeUsed i = true ∧ s.nodeLive i = false ∧
      s.breakPosition = (s.tables.node i).position.toNat + 1) := by
  have highest : (1 ≤ s.breakPosition ∧ ∀ i ∈ List.range 48, (s.tables.nodeUsed i && !s.nodeLive i) = true →
        (s.tables.node i).position.toNat + 1 ≤ s.breakPosition) ∧
      (s.breakPosition = 1 ∨ ∃ i ∈ List.range 48, (s.tables.nodeUsed i && !s.nodeLive i) = true ∧
        s.breakPosition = (s.tables.node i).position.toNat + 1) :=
    foldl_max (fun i => s.tables.nodeUsed i && !s.nodeLive i) (fun i => (s.tables.node i).position.toNat + 1) (List.range 48) 1
  simp only [Bool.and_eq_true, Bool.not_eq_true', List.mem_range] at highest
  obtain ⟨⟨-, all⟩, one⟩ := highest
  exact ⟨fun i small inUse dead => all i small ⟨inUse, dead⟩,
    one.imp_right fun ⟨i, small, ⟨inUse, dead⟩, top⟩ => ⟨i, small, inUse, dead, top⟩⟩

theorem mem_cutSetAt (s : State) (p b : Nat) :
    b ∈ s.cutSetAt p ↔ b < 24 ∧ s.tables.breakerUsed b = true ∧
      ∃ n, (s.tables.breaker b).nodeOf = some n ∧ p ≤ (s.tables.node n).position.toNat := by
  unfold State.cutSetAt State.beyond
  rw [List.mem_filter, List.mem_range, Bool.and_eq_true]
  cases (s.tables.breaker b).nodeOf with
  | none => simp
  | some n => simp [Tables.breakerUsed, Config.breakerCount]

/-! ## Queueing frames (R22 to R24) -/

/-- Frames other than SUPERVISION frames are queued and started: no record is made, and the orders last. -/
structure OnlyQueues (s t : State) : Prop where
  pool : t.pool = s.pool
  last : OrdersLast s t
  none : s.trip.orders = [] → t.trip.orders = []
  control : .supervision ∉ s.loop.controlQ → .supervision ∉ t.loop.controlQ

theorem OnlyQueues.refl (s : State) : OnlyQueues s s := ⟨rfl, .refl s, id, id⟩

theorem OnlyQueues.trans {s t u : State} (h : OnlyQueues s t) (k : OnlyQueues t u) : OnlyQueues s u :=
  ⟨k.pool.trans h.pool, h.last.trans k.last, k.none ∘ h.none, k.control ∘ h.control⟩

theorem startNext_onlyQueues (s : State) : OnlyQueues s s.startNext := by
  refine ⟨?_, startNext_last s, ?_, ?_⟩
  · unfold State.startNext
    split <;> rfl
  · intro none
    rcases startNext_orders s with same | ⟨f, rest, -, cleared⟩
    · exact same.trans none
    · rw [cleared, State.clearWaiting, State.updateOrder_orders, none]
      rfl
  · intro absent
    unfold State.startNext
    split
    case h_2 queue => exact fun mem => absent (queue ▸ List.mem_cons_of_mem _ mem)
    case h_3 queue => exact fun mem => absent (queue ▸ List.mem_cons_of_mem _ mem)
    all_goals exact absent

theorem pushControl_onlyQueues (s : State) {f : ControlFrame} (other : f ≠ .supervision) : OnlyQueues s (s.pushControl f) := by
  have joined : OnlyQueues s (s.setLoop { s.loop with controlQ := s.loop.controlQ ++ [f] }) := by
    refine ⟨rfl, .of_eq rfl, id, fun absent mem => ?_⟩
    rcases List.mem_append.1 mem with before | new
    · exact absent before
    · exact other (List.mem_singleton.1 new).symm
  unfold State.pushControl State.startIfIdle
  split
  · exact joined.trans (startNext_onlyQueues _)
  · exact joined

theorem offerHeldTests_onlyQueues (s : State) (n : Nat) : OnlyQueues s (s.offerHeldTests n) := by
  induction n generalizing s with
  | zero => exact .refl s
  | succ n ih =>
    unfold State.offerHeldTests
    split
    · exact .refl s
    · rename_i f rest _
      split
      · have left : OnlyQueues s (s.setLens { s.lens with held := rest }) := ⟨rfl, .of_eq rfl, id, id⟩
        have pushed := pushControl_onlyQueues (s.setLens { s.lens with held := rest }) (f := .test f) (by exact nofun)
        exact (left.trans pushed).trans (ih _)
      · exact .refl s

theorem queueHeldTests_onlyQueues (s : State) : OnlyQueues s s.queueHeldTests := by
  unfold State.queueHeldTests
  split
  · exact .refl s
  · exact offerHeldTests_onlyQueues s _

theorem queueOrSkip_onlyQueues (s : State) {f : ControlFrame} (other : f ≠ .supervision) : OnlyQueues s (s.queueOrSkip f) := by
  unfold State.queueOrSkip
  split
  · exact pushControl_onlyQueues s other
  · exact .refl s

theorem queueOrSkip_sending {s : State} (busy : Busy s) (f : ControlFrame) :
    (s.queueOrSkip f).loop.sending = s.loop.sending ∧ (s.queueOrSkip f).loop.outSeq = s.loop.outSeq ∧
      (s.queueOrSkip f).loop.controlQ = if s.loop.controlQ.length < 4 then s.loop.controlQ ++ [f] else s.loop.controlQ := by
  by_cases room : s.loop.controlQ.length < 4
  · rw [queueOrSkip_busy busy room, if_pos room]
    exact ⟨rfl, rfl, rfl⟩
  · rw [queueOrSkip_full (Nat.not_lt.1 room), if_neg room]
    exact ⟨rfl, rfl, rfl⟩

/-! ## The recomputed cut set -/

theorem recomputeCut_fromNewCut (s : State) : KeptByOrders s.newCut s.recomputeCut :=
  KeptByOrders.trans (keeps_foldl KeptByOrders.refl KeptByOrders.trans enterCut_kept _ s.newCut) (withdrawTrips_kept _ s.handedOver)

theorem recomputeCut_lens (s : State) : s.recomputeCut.lens = s.lens := (recomputeCut_fromNewCut s).lens

/-- Among the breakers handed over, an ISSUED order on one that is cut and has no line fails, and stays FAILED (R21, R122). -/
theorem enterCuts_fail (l : List Nat) {s : State} {b : Nat} {o : Order} (ho : s.order b = some o)
    (issued : o.state = .issued ∨ o.hasFailed) (cut : s.cutWithoutLine b = true) (mem : b ∈ l) :
    ∃ o', (l.foldl State.enterCut s).order b = some o' ∧ o'.hasFailed := by
  have rest : ∀ (l : List Nat) {s : State} {o : Order}, s.order b = some o → o.hasFailed →
      ∃ o', (l.foldl State.enterCut s).order b = some o' ∧ o'.hasFailed := fun l s o ho failed =>
    have ⟨o', ho', _, _, stays, _⟩ := keeps_foldl OrdersLast.refl OrdersLast.trans enterCut_last l s b o ho
    ⟨o', ho', stays failed⟩
  induction l generalizing s o with
  | nil => exact absurd mem List.not_mem_nil
  | cons c l ih =>
    rcases issued with issued | failed
    · by_cases now : b = c
      · obtain ⟨o', ho', failed⟩ := enterCut_fails ho issued cut
        exact rest l (now ▸ ho') failed
      · obtain ⟨o', ho', -, -, -, lasts⟩ := enterCut_last s c b o ho
        have keeps := Demands.keeps (enterCut_byDemands s c)
        refine ih ho' (lasts issued) ?_ ((List.mem_cons.1 mem).resolve_left now)
        rw [cutWithoutLine_congr (cutSet_of_rest keeps.loopRest) keeps.active]
        exact cut
    · exact rest (c :: l) ho failed

/-- An ISSUED order on a breaker that enters the cut set without a trip line fails (R21, R122). -/
theorem recomputeCut_fails {s : State} {b : Nat} {o : Order} (ho : s.order b = some o) (issued : o.state = .issued ∨ o.hasFailed)
    (line : s.lineOf b = none) (enters : b ∈ s.cutSetAt s.breakPosition) (uncut : s.isCut b = false) :
    ∃ o', s.recomputeCut.order b = some o' ∧ o'.hasFailed := by
  have cut : s.newCut.cutWithoutLine b = true := by
    rw [State.cutWithoutLine, Bool.and_eq_true, decide_eq_true_eq]
    exact ⟨List.contains_iff_mem.2 enters, line⟩
  have handed : b ∈ (s.cutSetAt s.breakPosition).filter fun b => !s.isCut b :=
    List.mem_filter.2 ⟨enters, by rw [uncut]; rfl⟩
  obtain ⟨p, hp, failed⟩ := enterCuts_fail _ (s := s.newCut) ho issued cut handed
  obtain ⟨q, hq, -, -, stays, -⟩ := keeps_foldl OrdersLast.refl OrdersLast.trans withdrawTrip_last
    (s.cutSetAt s.breakPosition) s.handedOver b p hp
  exact ⟨q, hq, stays failed⟩

/-- Without an order there is nothing to fail, and nothing is sent or recorded. -/
structure NothingOrdered (s t : State) : Prop where
  pool : t.pool = s.pool
  none : t.trip.orders = []
  sending : t.loop.sending = s.loop.sending
  outSeq : t.loop.outSeq = s.loop.outSeq
  trip : s.loop.tripQ = [] → t.loop.tripQ = []
  control : t.loop.controlQ = s.loop.controlQ

theorem enterCut_unordered {s : State} (none : s.trip.orders = []) (b : Nat) : s.enterCut b = s := by
  unfold State.enterCut State.order
  rw [none]
  rfl

theorem enterCuts_unordered {s : State} (none : s.trip.orders = []) (l : List Nat) : l.foldl State.enterCut s = s := by
  induction l with
  | nil => rfl
  | cons b l ih => rw [List.foldl_cons, enterCut_unordered none, ih]

theorem withdrawTrip_unordered {s : State} (none : s.trip.orders = []) (b : Nat) : NothingOrdered s (s.withdrawTrip b) := by
  refine ⟨rfl, ?_, rfl, rfl, fun empty => ?_, rfl⟩
  · show s.trip.orders.map _ = []
    rw [none]
    rfl
  · show s.loop.tripQ.filter _ = []
    rw [empty]
    rfl

theorem withdrawTrips_unordered {s : State} (none : s.trip.orders = []) (l : List Nat) :
    NothingOrdered s (l.foldl State.withdrawTrip s) := by
  induction l generalizing s with
  | nil => exact ⟨rfl, none, rfl, rfl, id, rfl⟩
  | cons b l ih =>
    have first := withdrawTrip_unordered none b
    have rest := ih first.none
    exact ⟨rest.pool.trans first.pool, rest.none, rest.sending.trans first.sending, rest.outSeq.trans first.outSeq,
      rest.trip ∘ first.trip, rest.control.trans first.control⟩

theorem recomputeCut_unordered {s : State} (none : s.trip.orders = []) : NothingOrdered s s.recomputeCut := by
  have handed : s.handedOver = s.newCut := enterCuts_unordered (s := s.newCut) none _
  rw [recomputeCut_eq, handed]
  obtain ⟨pool, left, sending, outSeq, trip, control⟩ := withdrawTrips_unordered (s := s.newCut) none (s.cutSetAt s.breakPosition)
  exact ⟨pool, left, sending, outSeq, trip, control⟩

end Sys2Proof.Machine
end

section
/-! SUPPORT. The entry to OPEN as a whole: its loop values, its records, the orders that fail and its frames (R11, R15, R16, R20 to R22). -/

namespace Sys2Proof.Machine

open Sys2Proof.Safety
open Relation (ReflTransGen)

/-! ## The loop values -/

theorem claim_of_rest {l m : LoopPort} (h : m.rest = l.rest) : m.result = l.result ∧ m.claimList = l.claimList := by
  have result := congrArg LoopPort.result h
  have claimList := congrArg LoopPort.claimList h
  exact ⟨result, claimList⟩

theorem opening_eq {s : State} (free : s.loop.claimWaiting = false) : s.opening = (s.setLoop s.loop.toOpen).queueHeldTests := by
  unfold State.opening State.tellControlRoom
  rw [queueWaitingClaim_none (s := s.setLoop s.loop.toOpen) (.inl free)]

theorem opening_kept (s : State) : KeptByLoop s s.opening := (setLoop_keptByLoop s _).trans (tellControlRoom_kept _)

theorem opening_rest {s : State} (free : s.loop.claimWaiting = false) : s.opening.loop.rest = s.loop.toOpen.rest := by
  rw [opening_eq free]
  exact (Demands.keeps (queueHeldTests_byDemands (s.setLoop s.loop.toOpen))).loopRest

theorem opening_breakPosition (s : State) : s.opening.breakPosition = s.breakPosition :=
  breakPosition_congr (opening_kept s).active (nodeLive_congr (opening_kept s).nodes)

theorem opening_cutSetAt (s : State) (p : Nat) : s.opening.cutSetAt p = s.cutSetAt p := cutSetAt_congr (opening_kept s).active p

theorem opening_onlyQueues {s : State} (free : s.loop.claimWaiting = false) : OnlyQueues (s.setLoop s.loop.toOpen) s.opening :=
  opening_eq free ▸ queueHeldTests_onlyQueues _

/-- The Loop Port's rest once it is OPEN: the timers stopped, the new break position and the cut set. -/
theorem opened_rest {s : State} (free : s.loop.claimWaiting = false) (c : OpenCause) :
    (s.opened c).loop.rest = ({ s.loop.toOpen with
      breakPos := some s.breakPosition, cutSet := s.cutSetAt s.breakPosition } : LoopPort).rest := by
  refine (Demands.keeps (opened_byDemands s c)).loopRest.trans ((recomputeCut_loopRest s.opening).trans ?_)
  show ({ s.opening.loop.rest with
    breakPos := some s.opening.breakPosition, cutSet := s.opening.cutSetAt s.opening.breakPosition } : LoopPort) = _
  rw [opening_breakPosition, opening_cutSetAt, opening_rest free]
  rfl

/-- No claim is under way in OPEN (R11, R16). -/
theorem opened_outstanding {s : State} (free : s.loop.claimWaiting = false) (absent : .claim ∉ s.loop.controlQ) (c : OpenCause) :
    (s.opened c).loop.outstanding = none := by
  have unqueued : (s.loop.controlQ.filter fun f => f ≠ .supervision).count .claim = 0 :=
    List.count_eq_zero.2 fun mem => absent (List.mem_of_mem_filter mem)
  have none : claimsUnderWay s.loop.toOpen = 0 := claims_none free unqueued rfl
  have offered : Demands (s.setLoop s.loop.toOpen) s.opening := opening_eq free ▸ queueHeldTests_byDemands _
  have run : Parts (s.setLoop s.loop.toOpen) (s.opened c) :=
    ((Demands.parts offered).trans (recomputeCut_byParts (opening_open s))).trans (Demands.parts (opened_byDemands s c))
  have stays := (Parts.claims run (by rw [State.setLoop_loop, none]; exact Nat.zero_le _)).count.trans none
  unfold claimsUnderWay at stays
  by_contra some
  rw [if_pos (Option.isSome_iff_ne_none.2 some)] at stays
  omega

theorem recomputeCut_supervision {s : State} (absent : .supervision ∉ s.loop.controlQ) :
    .supervision ∉ s.recomputeCut.loop.controlQ := by
  rw [(recomputeCut_onlyTrips s).control]
  exact absent

/-- No SUPERVISION frame is queued in OPEN (R16). -/
theorem opened_supervision {s : State} (free : s.loop.claimWaiting = false) (c : OpenCause) :
    .supervision ∉ (s.opened c).loop.controlQ := by
  have withdrawn : .supervision ∉ (s.setLoop s.loop.toOpen).loop.controlQ := fun mem => by
    simpa using List.of_mem_filter mem
  have cut := recomputeCut_supervision ((opening_onlyQueues free).control withdrawn)
  exact (queueOrSkip_onlyQueues (s.opening.recomputeCut.record _) (f := .beacon) (by exact nofun)).control cut

/-! ## The records and the orders that fail -/

/-- A new cut set makes records for the orders that it fails alone. -/
theorem recomputeCut_made (s : State) : ∃ made : List RecordBody,
    s.recomputeCut.pool = made.foldl (fun p b => p.take s.deviceTime b) s.pool ∧ (s.trip.orders = [] → made = []) := by
  by_cases none : s.trip.orders = []
  · exact ⟨[], (recomputeCut_unordered none).pool, fun _ => rfl⟩
  · obtain ⟨made, pool, -⟩ := (recomputeCut_onlyTrips s).pool
    exact ⟨made, pool, fun absurdly => absurd absurdly none⟩

theorem recomputeCut_breakPos (s : State) : s.recomputeCut.loop.breakPos = some s.breakPosition :=
  breakPos_of_rest (l := s.newCut.loop) (recomputeCut_loopRest s)

/-- The LOOP_STATE record of an entry to OPEN names its cause and its break position (R16). -/
theorem opened_record (s : State) (c : OpenCause) : s.opening.recomputeCut.loopStateRecord c =
    { kind := .loopState, category := .alarm, value := some (value2 c.code s.breakPosition) } := by
  unfold State.loopStateRecord
  rw [recomputeCut_breakPos, opening_breakPosition]
  rfl

theorem opened_made {s : State} (free : s.loop.claimWaiting = false) (c : OpenCause) : ∃ made : List RecordBody,
    (s.opened c).pool = made.foldl (fun p b => p.take s.deviceTime b) s.pool ∧
      { kind := .loopState, category := .alarm, value := some (value2 c.code s.breakPosition) } ∈ made ∧
      (s.trip.orders = [] → made.length = 1) := by
  obtain ⟨made, pool, none⟩ := recomputeCut_made s.opening
  have queues := opening_onlyQueues free
  have time : s.opening.recomputeCut.deviceTime = s.deviceTime :=
    (recomputeCut_kept s.opening).deviceTime.trans (opening_kept s).deviceTime
  refine ⟨made ++ [s.opening.recomputeCut.loopStateRecord c], ?_, ?_, fun unordered => ?_⟩
  · refine (queueOrSkip_onlyQueues (s.opening.recomputeCut.record _) (f := .beacon) (by exact nofun)).pool.trans ?_
    have before : s.opening.recomputeCut.pool = made.foldl (fun p b => p.take s.deviceTime b) s.pool := by
      rw [pool, (opening_kept s).deviceTime, queues.pool]
      rfl
    rw [List.foldl_append, ← before, ← time]
    rfl
  · rw [opened_record]
    exact List.mem_append_right _ List.mem_cons_self
  · rw [none (queues.none unordered)]
    rfl

theorem opened_fails {s : State} (free : s.loop.claimWaiting = false) (c : OpenCause) {b : Nat} {o : Order}
    (ho : s.order b = some o) (issued : o.state = .issued) (line : s.lineOf b = none) (enters : b ∈ s.cutSetAt s.breakPosition)
    (uncut : s.isCut b = false) : ∃ o', (s.opened c).order b = some o' ∧ o'.hasFailed := by
  have kept := opening_kept s
  obtain ⟨p, hp, -, -, -, lasts⟩ := (opening_onlyQueues free).last b o ho
  have lineless : s.opening.lineOf b = none := by
    unfold State.lineOf
    rw [State.tables_congr kept.active]
    exact line
  have stillUncut : s.opening.isCut b = false := by
    rw [isCut_congr (s := s.setLoop s.loop.toOpen) (cutSet_of_rest (opening_rest free))]
    exact uncut
  obtain ⟨q, hq, failed⟩ := recomputeCut_fails hp (lasts issued) lineless
    (by rw [opening_breakPosition, opening_cutSetAt]; exact enters) stillUncut
  obtain ⟨r, hr, -, -, stays, -⟩ :=
    (queueOrSkip_onlyQueues (s.opening.recomputeCut.record _) (f := .beacon) (by exact nofun)).last b q hq
  exact ⟨r, hr, stays failed⟩

/-! ## The frames -/

/-- With a frame being sent the held TEST frames take the room, then the BEACON frame (R22, R24, R136). -/
theorem opened_busy {s : State} (free : s.loop.claimWaiting = false) (busy : Busy s) (c : OpenCause) :
    let stay := s.loop.controlQ.filter fun f => f ≠ .supervision
    let queued := stay ++ (s.lens.held.take (4 - stay.length)).map .test
    (s.opened c).loop.controlQ = (if queued.length < 4 then queued ++ [.beacon] else queued) ∧
      (s.opened c).lens = { s.lens with held := s.lens.held.drop (4 - stay.length) } := by
  intro stay queued
  have offered := (opening_eq free).trans ((queueHeldTests_free (s := s.setLoop s.loop.toOpen) free).trans
    (offerHeldTests_busy _ (s := s.setLoop s.loop.toOpen) busy (le_refl _)))
  have sends : Busy s.opening := by rw [offered]; exact busy
  have only := recomputeCut_onlyTrips s.opening
  have stillSends : Busy (s.opening.recomputeCut.record (s.opening.recomputeCut.loopStateRecord c)) := by
    show s.opening.recomputeCut.loop.sending ≠ none
    rw [only.busy sends]
    exact sends
  have control : s.opening.recomputeCut.loop.controlQ = queued := by
    rw [only.control, offered]
    rfl
  obtain ⟨-, -, joins⟩ := queueOrSkip_sending stillSends .beacon
  rw [State.record_loop, control] at joins
  have lens : (s.opened c).lens = s.opening.lens := (queueOrSkip_kept _ _).lens.trans (recomputeCut_lens s.opening)
  rw [offered] at lens
  exact ⟨joins, lens⟩

/-- At an idle output the first held TEST frame starts, and without one the BEACON frame (R22 to R24, R136). -/
theorem opened_idle {s : State} (free : s.loop.claimWaiting = false) (idle : s.loop.sending = none) (trip : s.loop.tripQ = [])
    (control : s.loop.controlQ = []) (unordered : s.trip.orders = []) (c : OpenCause) :
    (s.opened c).loop.sending = some ⟨(match s.lens.held with
      | [] => .control .beacon
      | f :: _ => .control (.test f)), s.loop.outSeq⟩ ∧ (s.opened c).loop.outSeq = s.loop.outSeq + 1 := by
  have cut := recomputeCut_unordered ((opening_onlyQueues free).none unordered)
  have emptied : (s.setLoop s.loop.toOpen).loop.controlQ = [] := by
    show s.loop.controlQ.filter _ = []
    rw [control]
    rfl
  cases held : s.lens.held with
  | nil =>
    have same : s.opening = s.setLoop s.loop.toOpen := by
      rw [opening_eq free, queueHeldTests_free (s := s.setLoop s.loop.toOpen) free]
      show (s.setLoop s.loop.toOpen).offerHeldTests s.lens.held.length = _
      rw [held]
      rfl
    rw [same] at cut
    have starts := queueOrSkip_idle (s := s.opening.recomputeCut.record (s.opening.recomputeCut.loopStateRecord c)) (f := .beacon)
      (by rw [same]; exact cut.sending.trans idle) (by rw [same]; exact cut.trip trip) (by rw [same]; exact cut.control.trans emptied)
      (by exact nofun)
    unfold State.opened
    rw [starts, State.record_loop, same, cut.outSeq]
    exact ⟨rfl, rfl⟩
  | cons f rest =>
    have offered := (opening_eq free).trans (queueHeldTests_idle (s := s.setLoop s.loop.toOpen) idle trip emptied free held)
    rw [queueHeldTests_free (by exact free), offerHeldTests_busy _ (by exact nofun) (le_refl _)] at offered
    have sending : s.opening.recomputeCut.loop.sending = some ⟨.control (.test f), s.loop.outSeq⟩ := by
      rw [cut.sending, offered]
      rfl
    have outSeq : s.opening.recomputeCut.loop.outSeq = s.loop.outSeq + 1 := by
      rw [cut.outSeq, offered]
      rfl
    obtain ⟨stillSending, stillOutSeq, -⟩ := queueOrSkip_sending
      (s := s.opening.recomputeCut.record (s.opening.recomputeCut.loopStateRecord c)) (by
        show s.opening.recomputeCut.loop.sending ≠ none
        rw [sending]
        exact nofun) .beacon
    exact ⟨stillSending.trans sending, stillOutSeq.trans outSeq⟩

/-- Settles O11: the loop values by the rest that queueing frames leaves alone, the failed orders by their lasting, and the frames by
the output. -/
theorem openEntry : Obligations.openEntry := by
  unfold Obligations.openEntry
  refine ⟨fun s command code up free absent expiry => ?_, fun s => ?_⟩
  · have outside : ∀ f, Host.Outcome.next (s.outsideReset f) = (.next (f s) : Outcome) := fun f => congrArg _ (outsideReset_up up f)
    obtain ⟨c, expires, rfl⟩ : ∃ c : OpenCause, exec command s = .next (s.enterOpen c) ∧ code = c.code := by
      rcases expiry with ⟨rfl, running, rfl⟩ | ⟨rfl, running, rfl⟩
      · exact ⟨.claimTimeout, (outside _).trans (congrArg _ (if_pos running)), rfl⟩
      · exact ⟨.supervisionTimeout, (outside _).trans (congrArg _ (if_pos running)), rfl⟩
    have kept := enterOpen_kept s c
    rw [enterOpen_eq] at expires kept
    have isOpen := opened_open s c
    have rest := opened_rest free c
    have outstanding := opened_outstanding free absent c
    have supervision := opened_supervision free c
    have made := opened_made free c
    have fails : ∀ b o, s.order b = some o → o.state = .issued → s.lineOf b = none → b ∈ s.cutSetAt s.breakPosition →
      s.isCut b = false → ∃ o', (s.opened c).order b = some o' ∧ o'.hasFailed := fun _ _ => opened_fails free c
    have busy := fun busy => opened_busy free busy c
    have idle := fun idle trip control unordered => opened_idle free idle trip control unordered c
    generalize s.opened c = u at *
    have timers := SameTimers.of_rest rest
    have cutSet : u.loop.cutSet = s.cutSetAt s.breakPosition := cutSet_of_rest rest
    have result : u.loop.result = s.loop.result := (claim_of_rest rest).1
    have claimList : u.loop.claimList = s.loop.claimList := (claim_of_rest rest).2
    exact ⟨_, expires, isOpen, breakPos_of_rest rest, cutSet, outstanding, timers.claimTimer, timers.supervision, timers.send, rfl,
      supervision, result, claimList, kept.nodes, kept.channels, kept.points,
      kept.sections, kept.positions, kept.store, kept.supply, made,
      fun b o ho issued line enters uncut => fails b o ho issued line (cutSet.subst (motive := (b ∈ ·)) enters) uncut,
      busy, idle⟩
  · exact ⟨(breakPosition_highest s).1, (breakPosition_highest s).2, mem_cutSetAt s⟩

end Sys2Proof.Machine
end

section
/-! SUPPORT. The two resets (R26, R177, R190): the records of the blocks at their reset values, and the Loop Port as it starts its claim. -/

namespace Sys2Proof.Machine

open Sys2Proof.Safety

/-! ## The records of the blocks at their reset values (R29, R44, R69, R105, R133) -/

/-- The node, channel, point and breaker records and the lens test have the reset values that a table set gives them. -/
structure Fresh (set : Tables) (t : State) : Prop where
  nodes : t.nodes = set.freshNodes
  channels : t.channels = set.freshChannels
  points : t.points = set.freshPoints
  positions : t.trip.positions = set.freshPositions
  lens : t.lens = .reset

theorem join_ofFn {n i : Nat} {f : Fin n → Option α} (h : i < n) : ((Vector.ofFn f)[i]?).join = f ⟨i, h⟩ := by
  rw [Vector.getElem?_ofFn, dif_pos h, Option.join_some]

theorem Fresh.records {set : Tables} {t : State} (fresh : Fresh set t) :
    (∀ n, n < 48 → t.node n = if set.nodeUsed n then some ⟨.absent, none, .stopped⟩ else none) ∧
    (∀ c, c < 96 → t.channel c = if set.channelUsed c then some (.fresh (set.channel c) .noData) else none) ∧
    (∀ p, p < 24 → t.point p = if set.pointUsed p then some ⟨0, .noData⟩ else none) ∧
    (∀ b, b < 24 → t.position b = if set.breakerUsed b then some .unknown else none) := by
  obtain ⟨nodes, channels, points, positions, -⟩ := fresh
  refine ⟨fun n known => ?_, fun c known => ?_, fun p known => ?_, fun b known => ?_⟩
  · rw [State.node, nodes]
    exact join_ofFn known
  · rw [State.channel, channels]
    exact join_ofFn known
  · rw [State.point, points]
    exact join_ofFn known
  · rw [State.position, positions]
    exact join_ofFn known

/-! ## The Loop Port starts its claim (R6, R7) -/

/-- A Loop Port at its reset values enters CLAIMING at an idle output, and its CLAIM frame starts at once. -/
theorem enterClaiming_reset {s : State} {seq : Byte} (h : s.loop = { LoopPort.reset with outSeq := seq }) :
    s.enterClaiming = s.setLoop { LoopPort.reset with
      outstanding := some seq, outSeq := seq + 1, sending := some ⟨.control .claim, seq⟩ } := by
  obtain ⟨-, -, starts⟩ := claimingEntry s
  refine (starts (by rw [h]; rfl) (by rw [h]; rfl) (by rw [h]; rfl)).trans ?_
  rw [h]
  rfl

/-! ## The end of a hard reset (R190) -/

/-- The part at the end of a hard reset, before the records of the blocks take their values. -/
def State.hardStart (s : State) (h : HardReset) (mv : Nat) : State := { s.readStore with
  loop := .reset
  pool := .empty
  trip := { s.readStore.trip with orders := [], lines := Vector.replicate _ .reset }
  supply := ⟨mv ≤ 3050, h.cause⟩
  deviceTime := 0
  hardReset := none }

/-- The records that the end of a hard reset makes: RESET, then SUPPLY_LOW when the supply is low (R185, R190). -/
def hardPool (h : HardReset) (mv : Nat) : EventPool :=
  if mv ≤ 3050 then (EventPool.empty.take 0 (resetRecord h.cause)).take 0 supplyLowRecord
  else EventPool.empty.take 0 (resetRecord h.cause)

theorem hardBase_eq (s : State) (h : HardReset) (mv : Nat) :
    s.hardBase h mv = { (s.hardStart h mv).freshRecords.hardSections with pool := hardPool h mv } := by
  unfold State.hardBase hardPool
  by_cases low : mv ≤ 3050
  · rw [if_pos low]
    exact if_pos (decide_eq_true low)
  · rw [if_neg low]
    exact if_neg (by rw [decide_eq_true_eq]; exact low)

theorem hardPool_chains (h : HardReset) (mv : Nat) : (hardPool h mv).tripChain = [] ∧ (hardPool h mv).tripTruncated = false ∧
    (hardPool h mv).generalTruncated = false ∧ (hardPool h mv).generalChain = ⟨0, ⟨0, 0, resetRecord h.cause⟩⟩ ::
      (if mv ≤ 3050 then [⟨1, ⟨1, 0, supplyLowRecord⟩⟩] else []) := by
  unfold hardPool
  split <;> exact ⟨rfl, rfl, rfl, rfl⟩

theorem hardBase_fresh (s : State) (h : HardReset) (mv : Nat) : Fresh s.readStore.agent.active (s.hardBase h mv) := by
  rw [hardBase_eq]
  exact ⟨rfl, rfl, rfl, rfl, rfl⟩

theorem hardBase_values (s : State) (h : HardReset) (mv : Nat) :
    (s.hardBase h mv).hardReset = none ∧ (s.hardBase h mv).deviceTime = 0 ∧ (s.hardBase h mv).agent = s.readStore.agent ∧
      (s.hardBase h mv).store = s.readStore.store ∧ (s.hardBase h mv).supply = ⟨mv ≤ 3050, h.cause⟩ ∧
      (s.hardBase h mv).pool = hardPool h mv ∧ (s.hardBase h mv).trip.lines = Vector.replicate _ .reset := by
  rw [hardBase_eq]
  exact ⟨rfl, rfl, rfl, rfl, rfl, rfl, rfl⟩

theorem hardBase_sectionRec (s : State) (h : HardReset) (mv : Nat) {i : Nat} (known : i < 16) : (s.hardBase h mv).sectionRec i =
    ⟨if (s.hardBase h mv).sectionInactive i then .inactive else .armed, false, false, .stopped, false, false⟩ := by
  rw [sectionRec_ofFn (hardBase_records s h mv) known]
  rfl

theorem line_inactive {s : State} (h : s.trip.lines = Vector.replicate _ .reset) (l : Nat) : s.line l = ⟨false, .stopped⟩ := by
  rw [State.line, h, Vector.getElem?_replicate]
  split <;> rfl

/-- Settles O46: the store's image, the reset values, and the CLAIM frame that starts. -/
theorem hardResetEnds : Obligations.hardResetEnds := by
  unfold Obligations.hardResetEnds
  intro s dipped below mv reset above cause set resetRec lowRec
  have ends : exec (.hardResetEnd mv) s = .next (s.finishHardReset ⟨dipped, below⟩ mv) := by
    refine congrArg Host.Outcome.next ?_
    unfold State.endHardReset
    rw [reset]
    exact if_pos above
  obtain ⟨up, time, agent, store, supply, pool, lines⟩ := hardBase_values s ⟨dipped, below⟩ mv
  have fresh := hardBase_fresh s ⟨dipped, below⟩ mv
  have orders := hardBase_orders s ⟨dipped, below⟩ mv
  have sections := fun i (known : i < 16) => hardBase_sectionRec s ⟨dipped, below⟩ mv known
  rw [finishHardReset_eq, enterClaiming_reset (seq := 0) (hardBase_loop s ⟨dipped, below⟩ mv)] at ends
  generalize s.hardBase ⟨dipped, below⟩ mv = u at *
  obtain ⟨nodes, channels, points, positions⟩ := fresh.records
  obtain ⟨tripChain, tripTruncated, generalTruncated, generalChain⟩ := hardPool_chains ⟨dipped, below⟩ mv
  rw [← pool] at tripChain tripTruncated generalTruncated generalChain
  exact ⟨_, ends, up, time, agent, store, supply, tripChain, tripTruncated, generalTruncated, generalChain, rfl, fresh.lens, orders,
    line_inactive lines, nodes, channels, points, positions, sections⟩

/-! ## SOFT_RESET (R26, R176, R177) -/

/-- The response OK to the pending SOFT_RESET is being sent (R26, R176). -/
theorem sendingSoftReset_ok {s : State} {x : Sending} {r : Response} (pending : s.agent.softResetPending = true)
    (sending : s.loop.sending = some x) (frame : x.frame = .response r) (code : r.code = 0x31) (ok : r.result = .ok) :
    s.sendingSoftReset = true := by
  unfold State.sendingSoftReset
  rw [pending, sending]
  simp only [frame, TxFrame.isSoftResetOk, code, ok]
  rfl

theorem sendingSoftReset_none {s : State} (h : s.agent.softResetPending = false) : s.sendingSoftReset = false := by
  unfold State.sendingSoftReset
  rw [h, Bool.false_and]

theorem sectionInactive_congr {s t : State} (mode : t.agent.mode = s.agent.mode) (active : t.agent.active = s.agent.active) (i : Nat) :
    t.sectionInactive i = s.sectionInactive i := by
  unfold State.sectionInactive State.sectionEntry
  rw [State.tables_congr active, mode]

theorem softBase_fresh (s : State) : Fresh s.tables s.softBase := ⟨rfl, rfl, rfl, rfl, rfl⟩

theorem softBase_trip (s : State) : s.softBase.trip = { s.trip with
    orders := s.trip.orders.map (fun o => { o with waiting := false }), positions := s.tables.freshPositions } := rfl

theorem softBase_values (s : State) :
    s.softBase.trip.lines = s.trip.lines ∧ s.softBase.store = s.store ∧ s.softBase.deviceTime = s.deviceTime ∧
      s.softBase.supply = { s.supply with cause := .soft } ∧ s.softBase.agent = s.agent.softReset ∧
      s.softBase.pool = s.pool.take s.deviceTime (resetRecord .soft) := by
  rw [softBase_trip]
  exact ⟨rfl, rfl, rfl, rfl, rfl, rfl⟩

/-- A TRIPPED section stands through a soft reset, and any other keeps its flags (R82). -/
theorem softBase_sectionRec (s : State) {i : Nat} (known : i < 16) : s.softBase.sectionRec i =
    if (s.sectionRec i).state = .tripped then s.sectionRec i
    else ⟨if s.sectionInactive i then .inactive else if (s.sectionRec i).block then .blocked else .armed,
      (s.sectionRec i).maintenance, (s.sectionRec i).block, .stopped, false, false⟩ := by
  have inactive : s.softStart.freshRecords.sectionInactive i = s.sectionInactive i := by
    obtain ⟨-, -, -, -, -, -, -, agent, -⟩ := refreshView_same ({ s.softStart with
      nodes := s.softStart.tables.freshNodes
      channels := s.softStart.tables.freshChannels
      points := s.softStart.tables.freshPoints
      trip := { s.softStart.trip with positions := s.softStart.tables.freshPositions }
      lens := .reset } : State)
    exact sectionInactive_congr (congrArg Agent.mode agent) (congrArg Agent.active agent) i
  have records : s.softBase.sections.records = _ :=
    (congrArg _ (State.record_sections _ _)).trans (softSections_records s.softStart.freshRecords)
  rw [sectionRec_ofFn records known, softStart_sectionRec, State.resetSectionState, inactive]

/-- Settles O47: the pending reset takes effect at the end of its answer alone; what stands, the reset values, and the CLAIM frame that
starts. -/
theorem softReset : Obligations.softReset := by
  unfold Obligations.softReset
  have outside : ∀ {s : State}, Up s → ∀ f, Host.Outcome.next (s.outsideReset f) = (.next (f s) : Outcome) := fun up f =>
    congrArg _ (outsideReset_up up f)
  refine ⟨fun s x r up pending sending frame code ok => ?_, fun s => ⟨fun source tag takes => ?_, fun up none => ?_,
    fun x r up pending sending frame code ok => ?_⟩⟩
  · have effect : exec .softResetTakesEffect s = .next s.performSoftReset :=
      (outside up _).trans (congrArg _ (if_pos (sendingSoftReset_ok pending sending frame code ok)))
    obtain ⟨lines, store, time, supply, agent, pool⟩ := softBase_values s
    have orders := softBase_orders s
    have fresh := softBase_fresh s
    have sections := fun i (known : i < 16) => softBase_sectionRec s known
    rw [performSoftReset_eq, enterClaiming_reset (seq := s.loop.outSeq) (softBase_loop s)] at effect
    generalize s.softBase = u at *
    obtain ⟨nodes, channels, points, positions⟩ := fresh.records
    exact ⟨_, effect, orders, lines, store, time, supply, agent, pool, rfl, fresh.lens,
      fun i known tripped => (sections i known).trans (if_pos tripped),
      fun i known untripped => (sections i known).trans (if_neg untripped), nodes, channels, points, positions⟩
  · obtain ⟨up, -⟩ := id takes
    exact (outside up _).trans (congrArg _ (takeRequest_answered takes rfl tag 0x31))
  · exact (outside up _).trans (congrArg _ (if_neg (by simp [sendingSoftReset_none none])))
  · have answered := sendingSoftReset_ok pending sending frame code ok
    refine (outside up _).trans ((congrArg _ ?_).trans (outside up _).symm)
    unfold State.sendingCompletes
    rw [sending]
    exact (if_pos answered).trans (if_pos answered).symm

end Sys2Proof.Machine
end

section
/-! SUPPORT. The recomputation of every section at an activation (R87, R102): what a section becomes depends on the view, the tables and its
own flags, which no recomputation of another section touches. -/

namespace Sys2Proof.Machine

open Sys2Proof.Safety

/-! ## What a section becomes (R87) -/

/-- What a recomputation gives a section that is not kept TRIPPED (R87, R88). -/
def State.outcome (s : State) (i : Nat) : SectionState :=
  if s.sectionInactive i then .inactive else if (s.sectionRec i).block then .blocked
  else if s.tripCondition i then .tripped else if s.someLit i then .light else .armed

/-- What an outcome depends on: the view, the active set, the mode and the flags. -/
structure SameInputs (s t : State) : Prop where
  channelViews : t.sections.channelViews = s.sections.channelViews
  pointViews : t.sections.pointViews = s.sections.pointViews
  active : t.agent.active = s.agent.active
  mode : t.agent.mode = s.agent.mode
  maintenance : ∀ i, (t.sectionRec i).maintenance = (s.sectionRec i).maintenance
  block : ∀ i, (t.sectionRec i).block = (s.sectionRec i).block

theorem SameInputs.trans {s t u : State} (h : SameInputs s t) (k : SameInputs t u) : SameInputs s u :=
  ⟨k.channelViews.trans h.channelViews, k.pointViews.trans h.pointViews, k.active.trans h.active, k.mode.trans h.mode,
    fun i => (k.maintenance i).trans (h.maintenance i), fun i => (k.block i).trans (h.block i)⟩

theorem SameInputs.refl (s : State) : SameInputs s s := ⟨rfl, rfl, rfl, rfl, fun _ => rfl, fun _ => rfl⟩

theorem SameInputs.of_sections {s t : State} (sections : t.sections = s.sections) (active : t.agent.active = s.agent.active)
    (mode : t.agent.mode = s.agent.mode) : SameInputs s t := by
  have same := State.sectionRec_congr (congrArg SectionEvaluator.records sections)
  exact ⟨congrArg _ sections, congrArg _ sections, active, mode, fun i => congrArg _ (same i), fun i => congrArg _ (same i)⟩

theorem SameInputs.someLit {s t : State} (h : SameInputs s t) (i : Nat) : t.someLit i = s.someLit i := by
  have tables : t.tables = s.tables := h.active
  have views := State.channelView_congr h.channelViews
  have lit : t.litIn i = s.litIn i := by
    funext c
    simp only [State.litIn, State.contributes, State.channelOf, State.viewed, tables, views]
  rw [State.someLit, State.lowestLit, lit]
  rfl

theorem SameInputs.tripCondition {s t : State} (h : SameInputs s t) (i : Nat) : t.tripCondition i = s.tripCondition i := by
  have tables : t.tables = s.tables := h.active
  have channelViews := State.channelView_congr h.channelViews
  have pointViews := State.pointView_congr h.pointViews
  have hasData : t.pointHasData = s.pointHasData := by
    funext p
    simp only [State.pointHasData, pointViews]
  have flagged : t.flagged = s.flagged := by
    funext p
    simp only [State.flagged, pointViews]
  have eligible : t.eligibleIn i = s.eligibleIn i := by
    funext c
    simp only [State.eligibleIn, State.contributes, State.channelOf, State.viewed, tables, channelViews]
  have rule : t.rule i = s.rule i := by
    unfold State.rule State.sectionEntry
    rw [tables, h.maintenance, hasData]
  simp only [State.tripCondition, rule, h.someLit, State.lowestEligible, State.lowestFlagged, State.sectionEntry, tables, eligible, flagged]

theorem SameInputs.outcome {s t : State} (h : SameInputs s t) (i : Nat) : t.outcome i = s.outcome i := by
  unfold State.outcome
  rw [sectionInactive_congr h.mode h.active, h.block, h.tripCondition, h.someLit]

/-! ## One section's record is written -/

/-- The record of one section has become another with the same flags, and the rest of the Section Evaluator stands. -/
structure Becomes (s t : State) (i : Nat) (state : SectionState) : Prop where
  inputs : SameInputs s t
  others : ∀ j, j ≠ i → t.sectionRec j = s.sectionRec j
  state : i < 16 → (t.sectionRec i).state = state

theorem becomes_setSection (s : State) (i : Nat) {r : SectionRec} (maintenance : r.maintenance = (s.sectionRec i).maintenance)
    (block : r.block = (s.sectionRec i).block) : Becomes s (s.setSection i r) i r.state := by
  have read := State.sectionRec_setSection s i
  have flag : ∀ {α : Type} (f : SectionRec → α), f r = f (s.sectionRec i) →
      ∀ j, f ((s.setSection i r).sectionRec j) = f (s.sectionRec j) := fun f same j => by
    rw [read]
    split
    next here => rw [same, here.1]
    next => rfl
  refine ⟨⟨rfl, rfl, rfl, rfl, flag SectionRec.maintenance maintenance, flag SectionRec.block block⟩, fun j other => ?_,
    fun known => ?_⟩
  · rw [read, if_neg fun here => other here.1.symm]
  · rw [read, if_pos ⟨rfl, known⟩]

theorem Becomes.of_sections {s t u : State} {i : Nat} {state : SectionState} (h : Becomes s t i state)
    (sections : u.sections = t.sections) (active : u.agent.active = t.agent.active) (mode : u.agent.mode = t.agent.mode) :
    Becomes s u i state := by
  have same := State.sectionRec_congr (congrArg SectionEvaluator.records sections)
  exact ⟨h.inputs.trans (.of_sections sections active mode), fun j other => (same j).trans (h.others j other),
    fun known => (congrArg _ (same i)).trans (h.state known)⟩

theorem Becomes.trans {s t u : State} {i : Nat} {first state : SectionState} (h : Becomes s t i first) (k : Becomes t u i state) :
    Becomes s u i state :=
  ⟨h.inputs.trans k.inputs, fun j other => (k.others j other).trans (h.others j other), k.state⟩

theorem enterTripped_becomes (s : State) (i : Nat) (c : Cause) : Becomes s (s.enterTripped i c) i .tripped := by
  have set := becomes_setSection s i (r := { s.sectionRec i with
    state := .tripped, persistence := .stopped, persistentMade := false, unconfirmableMade := false }) rfl rfl
  have disturbed := disturb_kept (s.setSection i { s.sectionRec i with
    state := .tripped, persistence := .stopped, persistentMade := false, unconfirmableMade := false })
  have asked := askBoundary_kept i (s.sectionEntry i).boundaryList ((s.setSection i { s.sectionRec i with
    state := .tripped, persistence := .stopped, persistentMade := false, unconfirmableMade := false }).disturb.record
      (s.trippedRecord i c))
  exact (set.of_sections disturbed.sections disturbed.active disturbed.mode).of_sections asked.sections asked.active asked.mode

theorem beginLight_becomes (s : State) (i : Nat) : Becomes s (s.beginLight i) i .light := by
  have set := becomes_setSection s i (r := { s.sectionRec i with
    state := .light, persistence := .running Config.persistenceTime, persistentMade := false, unconfirmableMade := false }) rfl rfl
  have disturbed := disturb_kept (s.setSection i { s.sectionRec i with
    state := .light, persistence := .running Config.persistenceTime, persistentMade := false, unconfirmableMade := false })
  exact set.of_sections disturbed.sections disturbed.active disturbed.mode

theorem alarmUnconfirmable_becomes (s : State) (i : Nat) : Becomes s (s.alarmUnconfirmable i) i (s.sectionRec i).state := by
  unfold State.alarmUnconfirmable
  dsimp only
  split
  · have set := becomes_setSection s i (r := { s.sectionRec i with unconfirmableMade := true }) rfl rfl
    exact set.of_sections rfl rfl rfl
  · exact ⟨.refl s, fun _ _ => rfl, fun _ => rfl⟩

/-- What an evaluation makes of a section (R88). -/
theorem evaluate_becomes (s : State) {i : Nat} (known : i < 16) (c : Cause) : Becomes s (s.evaluate i c) i
    (if s.tripCondition i then .tripped else if s.someLit i then .light else .armed) := by
  unfold State.evaluate
  split
  · exact enterTripped_becomes s i c
  · split
    · have lit : Becomes s (if (s.sectionRec i).state = .light then s else s.beginLight i) i .light := by
        split
        next was => exact ⟨.refl s, fun _ _ => rfl, fun _ => was⟩
        next => exact beginLight_becomes s i
      have alarmed := alarmUnconfirmable_becomes (if (s.sectionRec i).state = .light then s else s.beginLight i) i
      rw [lit.state known] at alarmed
      exact lit.trans alarmed
    · exact becomes_setSection s i rfl rfl

/-- What a recomputation makes of a section (R87). -/
theorem recompute_becomes (s : State) {i : Nat} (known : i < 16) :
    ∃ state, Becomes s (s.recompute i) i state ∧ ((s.sectionRec i).state ≠ .tripped → state = s.outcome i) := by
  unfold State.recompute State.outcome
  dsimp only
  split
  · exact ⟨.inactive, becomes_setSection s i rfl rfl, fun _ => rfl⟩
  · split
    next tripped => exact ⟨.tripped, becomes_setSection s i rfl rfl, fun untripped => absurd tripped untripped⟩
    next =>
      split
      · exact ⟨.blocked, becomes_setSection s i rfl rfl, fun _ => rfl⟩
      · have armed := becomes_setSection s i (r := { s.sectionRec i with
          state := .armed, persistence := .stopped, persistentMade := false, unconfirmableMade := false }) rfl rfl
        have evaluated := armed.trans (evaluate_becomes _ known .other)
        rw [armed.inputs.tripCondition, armed.inputs.someLit] at evaluated
        exact ⟨_, evaluated, fun _ => rfl⟩

/-! ## Every section is recomputed (R102) -/

/-- Of sections recomputed one after the other, each becomes what it would have become at first. -/
theorem recomputes_outcome (l : List Nat) (once : l.Nodup) (known : ∀ i ∈ l, i < 16) (s : State) :
    SameInputs s (l.foldl State.recompute s) ∧
      (∀ j, j ∉ l → (l.foldl State.recompute s).sectionRec j = s.sectionRec j) ∧
      ∀ i ∈ l, (s.sectionRec i).state ≠ .tripped → ((l.foldl State.recompute s).sectionRec i).state = s.outcome i := by
  induction l generalizing s with
  | nil => exact ⟨.refl s, fun _ _ => rfl, nofun⟩
  | cons i l ih =>
    obtain ⟨absent, once⟩ := List.nodup_cons.1 once
    obtain ⟨state, first, becomes⟩ := recompute_becomes s (known i List.mem_cons_self)
    obtain ⟨inputs, others, outcomes⟩ := ih once (fun j mem => known j (List.mem_cons_of_mem i mem)) (s.recompute i)
    rw [List.foldl_cons]
    refine ⟨first.inputs.trans inputs, fun j out => ?_, fun j mem untripped => ?_⟩
    · exact (others j fun mem => out (List.mem_cons_of_mem i mem)).trans (first.others j fun same => out (same ▸ List.mem_cons_self))
    · by_cases same : j = i
      · subst same
        rw [others j absent, first.state (known j List.mem_cons_self), becomes untripped]
      · rw [outcomes j ((List.mem_cons.1 mem).resolve_left same) (by rw [first.others j same]; exact untripped)]
        exact first.inputs.outcome j

theorem recomputeSections_outcome (s : State) : SameInputs s.refreshView s.recomputeSections ∧
    ∀ i, i < 16 → (s.sectionRec i).state ≠ .tripped → (s.recomputeSections.sectionRec i).state = s.recomputeSections.outcome i := by
  obtain ⟨inputs, -, outcomes⟩ := recomputes_outcome (List.range 16) List.nodup_range (fun _ => List.mem_range.1) s.refreshView
  obtain ⟨-, -, -, -, -, -, -, -, records⟩ := refreshView_same s
  refine ⟨inputs, fun i known untripped => ?_⟩
  rw [← State.sectionRec_congr records i] at untripped
  exact (outcomes i (List.mem_range.2 known) untripped).trans (inputs.outcome i).symm

end Sys2Proof.Machine
end

section
/-! SUPPORT. The completion of a validation (R160 to R162): the records that the swap carries over, the Loop Port on the new tables (R19),
the records that the swap makes, and the answer. -/

namespace Sys2Proof.Machine

open Sys2Proof.Safety

/-! ## The records carried over (R41, R65, R78, R130, R162) -/

/-- The part with the new tables in force, before its records are carried over. -/
def State.swapping (s : State) : State := { s with agent := { s.agent with active := s.agent.shadow, mode := .protecting } }

theorem newTables_eq (s : State) : s.newTables =
    ((((s.swapping.carryNodes s.tables).carryChannels s.tables).carryPoints s.tables).carryBreakers s.tables).record
      (activatedRecord s.agent.mode) := rfl

/-- Each carry-over after the nodes' writes its own records alone. -/
theorem newTables_reads (s : State) {nodes channels points : State} (h : s.swapping.carryNodes s.tables = nodes)
    (k : nodes.carryChannels s.tables = channels) (l : channels.carryPoints s.tables = points) :
    (s.newTables.nodes = nodes.nodes ∧ s.newTables.channels = channels.channels ∧ s.newTables.points = points.points ∧
      s.newTables.trip.positions = (points.carryBreakers s.tables).trip.positions) ∧
    s.newTables.agent = s.swapping.agent ∧ s.newTables.deviceTime = s.deviceTime ∧
    s.newTables.pool = s.pool.take s.deviceTime (activatedRecord s.agent.mode) := by
  rw [newTables_eq, h, k, l]
  obtain ⟨writtenNodes, hn⟩ := carryNodes_writes s.swapping s.tables
  obtain ⟨writtenChannels, hc⟩ := carryChannels_writes nodes s.tables
  obtain ⟨writtenPoints, hp⟩ := carryPoints_writes channels s.tables
  obtain ⟨writtenPositions, hb⟩ := carryBreakers_writes points s.tables
  rw [hb]
  rw [hp] at l
  subst l
  rw [hc] at k
  subst k
  rw [hn] at h
  subst h
  exact ⟨⟨rfl, rfl, rfl, rfl⟩, rfl, rfl, rfl⟩

theorem newTables_values (s : State) : s.newTables.agent = s.swapping.agent ∧ s.newTables.deviceTime = s.deviceTime ∧
    s.newTables.pool = s.pool.take s.deviceTime (activatedRecord s.agent.mode) := (newTables_reads s rfl rfl rfl).2

theorem newTables_node (s : State) {n : Nat} (known : n < 48) : s.newTables.node n =
    if nodeKept s.agent.active s.agent.shadow n then s.node n else if s.agent.shadow.nodeUsed n then some .absent else none :=
  node_ofFn (newTables_nodes s) known

theorem newTables_channel (s : State) {c : Nat} (known : c < 96) : s.newTables.channel c =
    if channelUnchanged s.agent.active s.agent.shadow c && nodeKept s.agent.active s.agent.shadow (s.agent.shadow.channel c).node.toNat
    then s.channel c
    else if s.agent.shadow.channelUsed c then some (.fresh (s.agent.shadow.channel c)
      (if s.newTables.nodeLive (s.agent.shadow.channel c).node.toNat then .normal else .noData))
    else none := by
  obtain ⟨nodes, hn⟩ := carryNodes_writes s.swapping s.tables
  obtain ⟨⟨sameNodes, sameChannels, -, -⟩, -⟩ := newTables_reads s hn rfl rfl
  rw [nodeLive_congr sameNodes, State.channel_congr sameChannels]
  exact channel_carryChannels { s.swapping with nodes := nodes } s.tables known

theorem newTables_point (s : State) {p : Nat} (known : p < 24) : s.newTables.point p =
    if pointUnchanged s.agent.active s.agent.shadow p && nodeKept s.agent.active s.agent.shadow (s.agent.shadow.point p).node.toNat
    then s.point p
    else if s.agent.shadow.pointUsed p then
      some ⟨0, if s.newTables.nodeLive (s.agent.shadow.point p).node.toNat then .normal else .noData⟩
    else none := by
  obtain ⟨nodes, hn⟩ := carryNodes_writes s.swapping s.tables
  obtain ⟨channels, hc⟩ := carryChannels_writes { s.swapping with nodes := nodes } s.tables
  obtain ⟨⟨sameNodes, -, samePoints, -⟩, -⟩ := newTables_reads s hn hc rfl
  rw [nodeLive_congr sameNodes, State.point_congr samePoints]
  exact point_carryPoints { s.swapping with nodes := nodes, channels := channels } s.tables known

theorem newTables_position (s : State) {b : Nat} (known : b < 24) : s.newTables.position b =
    if breakerKept s.agent.active s.agent.shadow b then s.position b
    else if s.agent.shadow.breakerUsed b then some .unknown else none := by
  obtain ⟨nodes, hn⟩ := carryNodes_writes s.swapping s.tables
  obtain ⟨channels, hc⟩ := carryChannels_writes { s.swapping with nodes := nodes } s.tables
  obtain ⟨points, hp⟩ := carryPoints_writes { s.swapping with nodes := nodes, channels := channels } s.tables
  obtain ⟨⟨-, -, -, samePositions⟩, -⟩ := newTables_reads s hn hc hp
  rw [State.position_congr samePositions]
  exact position_carryBreakers { s.swapping with nodes := nodes, channels := channels, points := points } s.tables known

/-- A record that a test decides, by what the test says. -/
theorem kept_or_fresh {x kept fresh : α} {b : Bool} {p : Prop} (h : x = if b then kept else fresh) (decides : b = true ↔ p) :
    (p → x = kept) ∧ (¬p → x = fresh) :=
  ⟨fun holds => h.trans (if_pos (decides.2 holds)), fun fails => h.trans (if_neg fun holds => fails (decides.1 holds))⟩

theorem channelUnchanged_iff (old new : Tables) (c : Nat) : channelUnchanged old new c = true ↔ old.channelUsed c = true ∧
    new.channelUsed c = true ∧ ({ old.channel c with inUse := 1 } : ChannelEntry) = { new.channel c with inUse := 1 } := by
  unfold channelUnchanged
  rw [Bool.and_eq_true, Bool.and_eq_true, decide_eq_true_eq, and_assoc]

theorem pointUnchanged_iff (old new : Tables) (p : Nat) : pointUnchanged old new p = true ↔ old.pointUsed p = true ∧
    new.pointUsed p = true ∧ ({ old.point p with inUse := 1 } : PointEntry) = { new.point p with inUse := 1 } := by
  unfold pointUnchanged
  rw [Bool.and_eq_true, Bool.and_eq_true, decide_eq_true_eq, and_assoc]

theorem breakerKept_iff (old new : Tables) (b : Nat) : breakerKept old new b = true ↔ old.breakerUsed b = true ∧
    new.breakerUsed b = true ∧ (old.breaker b).number = (new.breaker b).number ∧
      ∃ n, (old.breaker b).nodeOf = some n ∧ (new.breaker b).nodeOf = some n ∧ nodeKept old new n = true := by
  unfold breakerKept
  simp only [Bool.and_eq_true, decide_eq_true_eq]
  cases (new.breaker b).nodeOf with
  | none => simp
  | some n =>
    constructor
    · rintro ⟨⟨⟨⟨oldUsed, newUsed⟩, node⟩, number⟩, kept⟩
      exact ⟨oldUsed, newUsed, number, n, node, rfl, kept⟩
    · rintro ⟨oldUsed, newUsed, number, m, node, same, kept⟩
      cases same
      exact ⟨⟨⟨⟨oldUsed, newUsed⟩, node⟩, number⟩, kept⟩

/-! ## The Loop Port on the new tables (R19) -/

theorem compareClaim_congr {s t : State} (mode : t.agent.mode = s.agent.mode) (active : t.agent.active = s.agent.active)
    (list : List Byte) : t.compareClaim list = s.compareClaim list := by
  unfold State.compareClaim State.configuredSequence
  rw [mode, State.tables_congr active]

/-- The claim result is computed again in CLOSED, the break position and the cut set in OPEN (R19). -/
theorem loopActivation_loop (s : State) :
    s.loopActivation.loop.state = s.loop.state ∧ s.loopActivation.loop.claimList = s.loop.claimList ∧
    s.loopActivation.loop.result = (if s.loop.state = .loopClosed then s.compareClaim s.loop.claimList else s.loop.result) ∧
    s.loopActivation.loop.breakPos = (if s.loop.state = .loopOpen then some s.breakPosition else s.loop.breakPos) ∧
    s.loopActivation.loop.cutSet = if s.loop.state = .loopOpen then s.cutSetAt s.breakPosition else s.loop.cutSet := by
  cases state : s.loop.state with
  | loopClosed =>
    have result : s.loopActivation.loop = { s.loop with result := s.compareClaim s.loop.claimList } := by
      unfold State.loopActivation
      rw [state]
      dsimp only
      split <;> rfl
    rw [result]
    exact ⟨state, rfl, rfl, rfl, rfl⟩
  | loopOpen =>
    have cut : s.loopActivation = s.recomputeCut := by
      unfold State.loopActivation
      rw [state]
    have rest := recomputeCut_loopRest s
    obtain ⟨result, claimList⟩ := claim_of_rest (l := s.newCut.loop) rest
    rw [cut]
    exact ⟨(recomputeCut_loopState s).trans state, claimList, result, breakPos_of_rest (l := s.newCut.loop) rest,
      cutSet_of_rest (l := s.newCut.loop) rest⟩
  | claiming =>
    have same : s.loopActivation = s := by
      unfold State.loopActivation
      rw [state]
    rw [same]
    exact ⟨state, rfl, rfl, rfl, rfl⟩

/-- A CLAIM_RESULT record is made in CLOSED when the result differs, and it is the first (R19). -/
theorem loopActivation_made (s : State) : ∃ made : List RecordBody, s.loopActivation.pool =
    made.foldl (fun p b => p.take s.deviceTime b)
      (if s.loop.state = .loopClosed ∧ s.compareClaim s.loop.claimList ≠ s.loop.result then
        s.pool.take s.deviceTime (claimRecord (s.compareClaim s.loop.claimList)) else s.pool) := by
  cases state : s.loop.state with
  | loopClosed =>
    refine ⟨[], ?_⟩
    unfold State.loopActivation
    rw [state]
    dsimp only
    split
    next same => exact (if_neg fun ⟨_, differs⟩ => differs same).symm
    next differs => exact (if_pos ⟨rfl, differs⟩).symm
  | loopOpen =>
    obtain ⟨made, pool, -⟩ := (recomputeCut_onlyTrips s).pool
    refine ⟨made, ?_⟩
    rw [if_neg (by exact nofun), ← pool]
    unfold State.loopActivation
    rw [state]
  | claiming =>
    refine ⟨[], ?_⟩
    rw [if_neg (by exact nofun)]
    unfold State.loopActivation
    rw [state]
    rfl

/-! ## The swap as a whole (R161) -/

/-- The part after the swap, before the store is written. -/
def State.swapped (s : State) : State := s.newTables.loopActivation.recomputeSections

theorem endSwap_eq (s : State) : s.swap.endValidation = s.swapped.beginStoreWrite.endValidation := rfl

theorem recomputeSections_kept (s : State) : KeptBySections s.refreshView s.recomputeSections :=
  keeps_foldl KeptBySections.refl KeptBySections.trans recompute_kept _ _

/-- What the Loop Port and the Section Evaluator leave alone after the carry-over. -/
structure SwapKeeps (s t : State) : Prop where
  nodes : t.nodes = s.nodes
  channels : t.channels = s.channels
  points : t.points = s.points
  positions : t.trip.positions = s.trip.positions
  active : t.agent.active = s.agent.active
  shadow : t.agent.shadow = s.agent.shadow
  mode : t.agent.mode = s.agent.mode

theorem SwapKeeps.trans {s t u : State} (h : SwapKeeps s t) (k : SwapKeeps t u) : SwapKeeps s u :=
  ⟨k.nodes.trans h.nodes, k.channels.trans h.channels, k.points.trans h.points, k.positions.trans h.positions,
    k.active.trans h.active, k.shadow.trans h.shadow, k.mode.trans h.mode⟩

theorem loopActivation_keeps (s : State) : SwapKeeps s s.loopActivation :=
  have kept := loopActivation_kept s
  ⟨kept.nodes, kept.channels, kept.points, kept.positions, kept.active, kept.shadow, kept.mode⟩

theorem recomputeSections_keeps (s : State) : SwapKeeps s s.recomputeSections := by
  obtain ⟨nodes, channels, points, trip, -, -, -, agent, -⟩ := refreshView_same s
  have viewed : SwapKeeps s s.refreshView :=
    ⟨nodes, channels, points, by rw [trip], by rw [agent], by rw [agent], by rw [agent]⟩
  have kept := recomputeSections_kept s
  exact viewed.trans ⟨kept.nodes, kept.channels, kept.points, kept.positions, kept.active, kept.shadow, kept.mode⟩

theorem swapped_keeps (s : State) : SwapKeeps s.newTables s.swapped :=
  (loopActivation_keeps s.newTables).trans (recomputeSections_keeps _)

/-- The sections keep their flags, and one that is not TRIPPED becomes what the refreshed view makes of it (R87, R102). -/
theorem swapped_sections (s : State) {i : Nat} (known : i < 16) :
    (s.swapped.sectionRec i).maintenance = (s.sectionRec i).maintenance ∧
      (s.swapped.sectionRec i).block = (s.sectionRec i).block ∧
      ((s.sectionRec i).state ≠ .tripped → (s.swapped.sectionRec i).state = s.swapped.outcome i) := by
  obtain ⟨inputs, outcomes⟩ := recomputeSections_outcome s.newTables.loopActivation
  obtain ⟨-, -, -, -, -, -, -, -, records⟩ := refreshView_same s.newTables.loopActivation
  have before : s.newTables.loopActivation.sectionRec i = s.sectionRec i := by
    rw [State.sectionRec_congr (congrArg SectionEvaluator.records (loopActivation_kept s.newTables).sections),
      State.sectionRec_congr (congrArg SectionEvaluator.records (newTables_sections s))]
  have viewed : s.newTables.loopActivation.refreshView.sectionRec i = s.sectionRec i :=
    (State.sectionRec_congr records i).trans before
  have outcome := outcomes i known
  rw [before] at outcome
  exact ⟨(inputs.maintenance i).trans (congrArg _ viewed), (inputs.block i).trans (congrArg _ viewed), outcome⟩

theorem swapped_loop (s : State) :
    s.swapped.loop.state = s.loop.state ∧ s.swapped.loop.claimList = s.loop.claimList ∧
    s.swapped.loop.result =
      (if s.loop.state = .loopClosed then s.swapping.compareClaim s.loop.claimList else s.loop.result) ∧
    s.swapped.loop.breakPos = (if s.loop.state = .loopOpen then some s.swapped.breakPosition else s.loop.breakPos) ∧
    s.swapped.loop.cutSet =
      if s.loop.state = .loopOpen then s.swapped.cutSetAt s.swapped.breakPosition else s.loop.cutSet := by
  have rest : s.swapped.loop.rest = s.newTables.loopActivation.loop.rest :=
    (Demands.keeps (recomputeSections_byDemands s.newTables.loopActivation)).loopRest
  have keeps := swapped_keeps s
  obtain ⟨agent, -⟩ := newTables_values s
  obtain ⟨sameResult, sameList⟩ := claim_of_rest rest
  obtain ⟨state, claimList, result, breakPos, cutSet⟩ := loopActivation_loop s.newTables
  rw [breakPosition_congr keeps.active (nodeLive_congr keeps.nodes), cutSetAt_congr keeps.active]
  rw [newTables_loop] at state claimList result breakPos cutSet
  rw [compareClaim_congr (s := s.swapping) (congrArg Agent.mode agent) (congrArg Agent.active agent)] at result
  exact ⟨(LoopPort.rest_state rest).trans state, sameList.trans claimList, sameResult.trans result,
    (breakPos_of_rest rest).trans breakPos, (cutSet_of_rest rest).trans cutSet⟩

/-- The TABLES_ACTIVATED record comes first, then the CLAIM_RESULT record of a result that differs (R19, R161). -/
theorem swapped_made (s : State) : ∃ later : List RecordBody, s.swapped.pool = later.foldl (fun p b => p.take s.deviceTime b)
    (if s.loop.state = .loopClosed ∧ s.swapping.compareClaim s.loop.claimList ≠ s.loop.result then
      (s.pool.take s.deviceTime (activatedRecord s.agent.mode)).take s.deviceTime
        (claimRecord (s.swapping.compareClaim s.loop.claimList))
    else s.pool.take s.deviceTime (activatedRecord s.agent.mode)) := by
  have only : OnlyTrips s.newTables.loopActivation.refreshView s.swapped :=
    keeps_foldl OnlyRecords.refl OnlyRecords.trans recompute_onlyTrips _ _
  obtain ⟨made, pool, -⟩ := only.pool
  obtain ⟨-, -, -, -, viewPool, viewTime, -, -, -⟩ := refreshView_same s.newTables.loopActivation
  obtain ⟨agent, time, activated⟩ := newTables_values s
  obtain ⟨first, loopPool⟩ := loopActivation_made s.newTables
  rw [newTables_loop, activated, time,
    compareClaim_congr (s := s.swapping) (congrArg Agent.mode agent) (congrArg Agent.active agent)] at loopPool
  refine ⟨first ++ made, ?_⟩
  rw [pool, viewPool, viewTime, (loopActivation_kept s.newTables).deviceTime, time, loopPool, List.foldl_append]

theorem activatedRecord_eq (mode : DeviceMode) : activatedRecord mode =
    { kind := .tablesActivated, category := .notice,
      value := some (value2 0 (match mode with
        | .unconfigured => 0
        | .protecting => 1)) } := by
  cases mode <;> rfl

/-! ## The completion of a validation (R160) -/

theorem validationCompletes_disturbed {s : State} {p : PendingActivation} (validating : s.agent.state = .validating)
    (pending : s.agent.activation = some p) (disturbed : s.agent.disturbed = true) :
    s.validationCompletes = s.endValidation.respond (p.response .refusedState []) := by
  unfold State.validationCompletes
  rw [validating, pending]
  exact if_pos disturbed

theorem validationCompletes_invalid {s : State} {p : PendingActivation} {f : TableFailure} (validating : s.agent.state = .validating)
    (pending : s.agent.activation = some p) (quiet : s.agent.disturbed = false) (fails : s.agent.shadow.validate = some f) :
    s.validationCompletes =
      s.endValidation.respond (p.response .invalidTables [byte f.table.code, byte f.index, byte f.check]) := by
  unfold State.validationCompletes
  rw [validating, pending, fails]
  exact if_neg (by simp [quiet])

theorem validationCompletes_swap {s : State} {p : PendingActivation} (validating : s.agent.state = .validating)
    (pending : s.agent.activation = some p) (quiet : s.agent.disturbed = false) (passes : s.agent.shadow.validate = none) :
    s.validationCompletes = s.swap.endValidation.respond (p.response .ok []) := by
  unfold State.validationCompletes
  rw [validating, pending, passes]
  exact if_neg (by simp [quiet])

/-- Settles O39: the three outcomes, and for the swap the carry-over, the Loop Port, the records and the sections in turn. -/
theorem validationCompletion : Obligations.validationCompletion := by
  unfold Obligations.validationCompletion
  intro s source tag up validating pending ended
  have outside : ∀ f, Host.Outcome.next (s.outsideReset f) = (.next (f s) : Outcome) := fun f => congrArg _ (outsideReset_up up f)
  refine ⟨fun disturbed => ?_, fun f quiet fails => ?_, fun quiet passes => ?_⟩
  · exact (outside _).trans (congrArg _ (validationCompletes_disturbed validating pending disturbed))
  · exact (outside _).trans (congrArg _ (validationCompletes_invalid validating pending quiet fails))
  · intro old new nodeKept' channelKept pointKept breakerKept' activated result compared
    have completes := (outside _).trans (congrArg _ (validationCompletes_swap validating pending quiet passes))
    rw [endSwap_eq] at completes
    have made := swapped_made s
    rw [activatedRecord_eq] at made
    have loop := swapped_loop s
    have sections := fun i (known : i < 16) => swapped_sections s (i := i) known
    have nodes : ∀ n, n < 48 → s.swapped.node n = _ := fun n known =>
      (State.node_congr (swapped_keeps s).nodes n).trans (newTables_node s known)
    have live := nodeLive_congr (swapped_keeps s).nodes
    have channels : ∀ c, c < 96 → s.swapped.channel c = _ := fun c known =>
      (State.channel_congr (swapped_keeps s).channels c).trans (newTables_channel s known)
    have points : ∀ p, p < 24 → s.swapped.point p = _ := fun p known =>
      (State.point_congr (swapped_keeps s).points p).trans (newTables_point s known)
    have positions : ∀ b, b < 24 → s.swapped.position b = _ := fun b known =>
      (State.position_congr (swapped_keeps s).positions b).trans (newTables_position s known)
    obtain ⟨agent, -⟩ := newTables_values s
    have active : s.swapped.agent.active = new := (swapped_keeps s).active.trans (by rw [agent]; rfl)
    have shadow : s.swapped.agent.shadow = new := (swapped_keeps s).shadow.trans (by rw [agent]; rfl)
    have mode : s.swapped.agent.mode = .protecting := (swapped_keeps s).mode.trans (by rw [agent]; rfl)
    simp only [← live] at channels points
    generalize s.swapped = u at *
    have inputs : SameInputs u u.beginStoreWrite.endValidation := .of_sections rfl rfl rfl
    have nodeKept_iff : ∀ n, nodeKept old new n = true ↔ nodeKept' n := nodeKept_iff old new
    refine ⟨_, completes, active, shadow, mode, rfl, rfl, ?_, made, loop, fun i known => ?_, fun n known => ?_, fun c known => ?_,
      fun p known => ?_, fun b known => ?_⟩
    · exact congrArg (SettingStore.mk .writing false) active
    · obtain ⟨maintenance, block, state⟩ := sections i known
      refine ⟨maintenance, block, fun untripped => ?_⟩
      rw [← block]
      exact (state untripped).trans (inputs.outcome i).symm
    · exact kept_or_fresh (nodes n known) (nodeKept_iff n)
    · refine kept_or_fresh (channels c known) ?_
      rw [Bool.and_eq_true, channelUnchanged_iff, nodeKept_iff, and_assoc, and_assoc]
    · refine kept_or_fresh (points p known) ?_
      rw [Bool.and_eq_true, pointUnchanged_iff, nodeKept_iff, and_assoc, and_assoc]
    · refine kept_or_fresh (positions b known) ?_
      simp only [breakerKept_iff, nodeKept_iff, breakerKept', old, new]

end Sys2Proof.Machine
end

section
/-! SUPPORT. Node frames at Node Admission (R27 to R39): the command of a node frame, the admission test and what a payload carries. -/

namespace Sys2Proof.Machine

open Sys2Proof.Safety

/-! ## The command of a node frame (R4) -/

theorem exec_nodeCommand (k : NodeKind) (source seq : Byte) (payload : List Byte) (s : State) :
    exec (nodeCommand k source seq payload) s = .next (s.outsideReset fun s => s.nodeFrame k source seq payload) := by
  cases k <;> rfl

theorem exec_nodeCommand_up {s : State} (up : Up s) (k : NodeKind) (source seq : Byte) (payload : List Byte) :
    exec (nodeCommand k source seq payload) s = .next (s.nodeFrame k source seq payload) :=
  (exec_nodeCommand k source seq payload s).trans (congrArg _ (outsideReset_up up _))

/-- A discarded frame has no effect, during a hard reset or outside (R27, R28, R33). -/
theorem exec_nodeCommand_discarded {s : State} {k : NodeKind} {source seq : Byte} {payload : List Byte}
    (h : s.acceptedFrame k source seq payload = none) : exec (nodeCommand k source seq payload) s = .next s :=
  (exec_nodeCommand k source seq payload s).trans (congrArg _ (outsideReset_same (nodeFrame_of_discarded h)))

/-! ## Position codes (R38, R192) -/

/-- The position that one of the four codes reports. -/
def reportedPosition (b : Byte) : Position :=
  if b = 1 then .atOpen else if b = 2 then .atClosed else if b = 3 then .moving else .fault

theorem ofCode_reported {b : Byte} (h : b ∈ [1, 2, 3, 4]) : Position.ofCode b = some (reportedPosition b) := by
  simp only [List.mem_cons, List.not_mem_nil, or_false] at h
  rcases h with rfl | rfl | rfl | rfl <;> decide

theorem ofCode_unknown {b : Byte} (h : b ∉ [1, 2, 3, 4]) : Position.ofCode b = none := by
  refine List.find?_eq_none.2 fun p mem named => h ?_
  rw [← of_decide_eq_true named]
  simp only [List.mem_cons, List.not_mem_nil, or_false] at mem
  rcases mem with rfl | rfl | rfl | rfl <;> decide

theorem positionCodes_reported {codes : List Byte} (h : ∀ b ∈ codes, b ∈ [1, 2, 3, 4]) :
    positionCodes codes = some (codes.map reportedPosition) := by
  unfold positionCodes
  induction codes with
  | nil => rfl
  | cons b codes ih =>
    rw [List.mapM_cons, ofCode_reported (h b List.mem_cons_self), ih fun c hc => h c (List.mem_cons_of_mem b hc)]
    rfl

/-- One byte that names no position makes the whole payload none (R27). -/
theorem positionCodes_none {codes : List Byte} {b : Byte} (mem : b ∈ codes) (h : b ∉ [1, 2, 3, 4]) : positionCodes codes = none := by
  unfold positionCodes
  induction codes with
  | nil => cases mem
  | cons c codes ih =>
    rw [List.mapM_cons]
    rcases List.mem_cons.1 mem with rfl | mem
    · rw [ofCode_unknown h]
      rfl
    · rw [ih mem]
      cases Position.ofCode c <;> rfl

/-! ## Light words and current words (R36, R37, R192) -/

theorem word_toNat (hi lo : Byte) : (word hi lo).toNat = 256 * hi.toNat + lo.toNat := by
  have small : lo.toNat < 2 ^ 8 := lo.isLt
  unfold word
  rw [BitVec.toNat_append, ← Nat.shiftLeft_add_eq_or_of_lt small, Nat.shiftLeft_eq]
  omega

theorem lightSamples_words (words : List (Byte × Byte)) : lightSamples (words.flatMap fun w => [w.1, w.2]) =
    words.map fun w => ((256 * w.1.toNat + w.2.toNat) % 4096, decide (128 ≤ w.1.toNat)) := by
  induction words with
  | nil => rfl
  | cons w words ih =>
    have level : ((word w.1 w.2).extractLsb' 0 12).toNat = (256 * w.1.toNat + w.2.toNat) % 4096 := by
      rw [BitVec.extractLsb'_toNat, word_toNat, Nat.shiftRight_zero]
    have flag : (word w.1 w.2).getLsbD 15 = decide (128 ≤ w.1.toNat) := by
      unfold word
      rw [BitVec.getLsbD_append]
      exact BitVec.msb_eq_decide w.1
    simp only [List.flatMap_cons, List.map_cons, List.cons_append, List.nil_append, lightSamples, level, flag, ih]

theorem currentSamples_words (points : List ((Byte × Byte) × (Byte × Byte) × (Byte × Byte))) :
    currentSamples (points.flatMap fun x => [x.1.1, x.1.2, x.2.1.1, x.2.1.2, x.2.2.1, x.2.2.2]) =
      points.map fun x => ⟨256 * x.1.1.toNat + x.1.2.toNat, 256 * x.2.1.1.toNat + x.2.1.2.toNat,
        256 * x.2.2.1.toNat + x.2.2.2.toNat⟩ := by
  induction points with
  | nil => rfl
  | cons x points ih =>
    simp only [List.flatMap_cons, List.map_cons, List.cons_append, List.nil_append, currentSamples, word_toNat, ih]

/-! ## The admission test (R27) -/

/-- The entry that a source address finds is in use and has that address. -/
theorem entryOfSource_some {s : State} {source : Byte} {n : Nat} (h : s.entryOfSource source = some n) :
    n < 48 ∧ s.tables.nodeUsed n = true ∧ (s.tables.node n).address = source := by
  have inRange := List.mem_of_find?_eq_some h
  have named := List.find?_some h
  rw [Bool.and_eq_true, decide_eq_true_eq] at named
  exact ⟨List.mem_range.1 inRange, named⟩

theorem entryOfSource_unique {s : State} {source : Byte} {n : Nat} (small : n < 48) (inUse : s.tables.nodeUsed n = true)
    (address : (s.tables.node n).address = source)
    (only : ∀ j, j < 48 → s.tables.nodeUsed j = true → (s.tables.node j).address = source → j = n) :
    s.entryOfSource source = some n := by
  cases found : s.entryOfSource source with
  | none =>
    refine absurd (List.find?_eq_none.1 found n (List.mem_range.2 small)) (not_not_intro ?_)
    exact Bool.and_eq_true_iff.2 ⟨inUse, decide_eq_true address⟩
  | some j =>
    obtain ⟨hj, used, named⟩ := entryOfSource_some found
    exact congrArg some (only j hj used named)

/-- A frame passes for the entry that its source address finds when it agrees with it in kind, count and length. -/
theorem admission_of_entry {s : State} {k : NodeKind} {source count : Byte} {bytes : List Byte} {n : Nat}
    (mode : s.agent.mode = .protecting) (entry : s.entryOfSource source = some n) (kind : (s.tables.node n).kind = k.code)
    (agrees : (s.tables.node n).count = count) (length : bytes.length = k.bytesFor count.toNat) :
    s.admission k source (count :: bytes) = (k.contents bytes).map fun c => (n, c) := by
  unfold State.admission
  rw [if_neg (by rw [mode]; exact nofun), entry]
  exact if_pos ⟨kind, agrees.symm, length⟩

/-- An admitted frame agrees with the in-use entry of its source address, and its bytes carry its contents. -/
theorem admission_some {s : State} {k : NodeKind} {source : Byte} {payload : List Byte} {n : Nat} {c : Contents}
    (h : s.admission k source payload = some (n, c)) :
    s.agent.mode ≠ .unconfigured ∧ s.entryOfSource source = some n ∧ ∃ bytes, payload = (s.tables.node n).count :: bytes ∧
      (s.tables.node n).kind = k.code ∧ bytes.length = k.bytesFor (s.tables.node n).count.toNat ∧ k.contents bytes = some c := by
  unfold State.admission at h
  split at h
  · cases h
  · rename_i configured
    split at h
    · rename_i i count bytes entry
      split at h
      · rename_i agrees
        obtain ⟨kind, rfl, length⟩ := agrees
        obtain ⟨c', contents, e⟩ := Option.map_eq_some_iff.1 h
        cases e
        exact ⟨configured, entry, bytes, rfl, kind, length, contents⟩
      · cases h
    · cases h

/-- A frame with no agreeing entry does not pass (R27). -/
theorem admission_refused {s : State} {k : NodeKind} {source : Byte} {payload : List Byte}
    (h : s.agent.mode = .unconfigured ∨
      ∀ i, i < 48 → s.tables.nodeUsed i = true → (s.tables.node i).address = source →
        (s.tables.node i).kind ≠ k.code ∨ payload.head? ≠ some (s.tables.node i).count ∨
          payload.length ≠ 1 + k.bytesFor (s.tables.node i).count.toNat ∨
          (k = .breaker ∧ ∃ b ∈ payload.tail, b ∉ [1, 2, 3, 4])) :
    s.admission k source payload = none := by
  rw [← Option.not_isSome_iff_eq_none, Option.isSome_iff_exists]
  rintro ⟨⟨n, c⟩, passes⟩
  obtain ⟨configured, entry, bytes, rfl, kind, length, contents⟩ := admission_some passes
  obtain ⟨small, inUse, address⟩ := entryOfSource_some entry
  rcases h.resolve_left configured n small inUse address with wrong | wrong | wrong | ⟨rfl, b, mem, wrong⟩
  · exact wrong kind
  · exact wrong rfl
  · exact wrong (by rw [List.length_cons, length, Nat.add_comm])
  · have carried : (positionCodes bytes).map Contents.positions = some c := contents
    rw [positionCodes_none (codes := bytes) mem wrong] at carried
    cases carried

theorem acceptedFrame_of_refused {s : State} {k : NodeKind} {source : Byte} {payload : List Byte}
    (h : s.admission k source payload = none) (seq : Byte) : s.acceptedFrame k source seq payload = none := by
  unfold State.acceptedFrame
  rw [h]
  exact ite_self none

/-- A frame that repeats the last sequence number of its LIVE node is a duplicate (R33). -/
theorem acceptedFrame_of_duplicate {s : State} {k : NodeKind} {source seq : Byte} {payload : List Byte} {n : Nat} {timer : Timer}
    (entry : s.entryOfSource source = some n) (live : s.node n = some ⟨.live, some seq, timer⟩) :
    s.acceptedFrame k source seq payload = none := by
  cases passes : s.admission k source payload with
  | none => exact acceptedFrame_of_refused passes seq
  | some x =>
    obtain ⟨m, c⟩ := x
    obtain ⟨-, found, -⟩ := admission_some passes
    cases entry.symm.trans found
    unfold State.acceptedFrame
    rw [passes]
    dsimp only
    rw [live]
    dsimp only
    rw [if_pos (show sequenceDifference seq seq = 0 by unfold sequenceDifference; rw [BitVec.sub_self]; rfl), ite_self]

/-- Settles O14: the admission test fails, or the frame is a duplicate; and the contents by the kind. -/
theorem refusedNodeFramesHaveNoEffect : Obligations.refusedNodeFramesHaveNoEffect := by
  unfold Obligations.refusedNodeFramesHaveNoEffect
  refine ⟨fun k source seq payload s => ⟨fun h => ?_, fun n timer entry live => ?_⟩,
    fun s source count n mode small inUse address agrees only => ?_⟩
  · exact exec_nodeCommand_discarded (acceptedFrame_of_refused (admission_refused h) seq)
  · exact exec_nodeCommand_discarded (acceptedFrame_of_duplicate entry live)
  · have entry := entryOfSource_unique small inUse address only
    refine ⟨fun words kind length => ?_, fun points kind length => ?_, fun codes kind length named => ?_⟩
    · rw [admission_of_entry (k := .light) mode entry kind agrees (by simp [NodeKind.bytesFor, length, Nat.mul_comm]),
        NodeKind.contents, lightSamples_words]
      rfl
    · rw [admission_of_entry (k := .current) mode entry kind agrees (by simp [NodeKind.bytesFor, length, Nat.mul_comm]),
        NodeKind.contents, currentSamples_words]
      rfl
    · rw [admission_of_entry (k := .breaker) mode entry kind agrees length, NodeKind.contents, positionCodes_reported named]
      rfl

end Sys2Proof.Machine
end

section
/-! SUPPORT. A frame of a LIVE node (R31 to R39): the node's record, and the delivery of light and current samples, each to the entry
that names the node and its number (R45, R52, R70 to R73). -/

namespace Sys2Proof.Machine

open Sys2Proof.Safety

/-! ## The entry that a sample is for (R36 to R38) -/

/-- The first of the entries that name a node with a number, and none when no entry does. -/
theorem find_named (size : Nat) (named numbered : Nat → Bool) :
    (∀ i, ((List.range size).filter named).find? numbered = some i → i < size ∧ named i = true ∧ numbered i = true) ∧
      (((List.range size).filter named).find? numbered = none → ∀ i, ¬(i < size ∧ named i = true ∧ numbered i = true)) := by
  refine ⟨fun i found => ?_, fun absent i ⟨small, name, number⟩ => ?_⟩
  · obtain ⟨small, name⟩ := List.mem_filter.1 (List.mem_of_find?_eq_some found)
    exact ⟨List.mem_range.1 small, name, List.find?_some found⟩
  · exact List.find?_eq_none.1 absent i (List.mem_filter.2 ⟨List.mem_range.2 small, name⟩) number

theorem channelAt_names (s : State) (n k : Nat) :
    let names (c : Nat) : Prop := c < 96 ∧ s.tables.channelUsed c = true ∧ (s.tables.channel c).node.toNat = n ∧
      (s.tables.channel c).number.toNat = k
    (∀ c, s.channelAt n k = some c → names c) ∧ (s.channelAt n k = none → ∀ c, ¬names c) := by
  have h := find_named 96 (fun c => s.tables.channelUsed c && ((s.tables.channel c).node.toNat = n))
    fun c => (s.tables.channel c).number.toNat = k
  simp only [Bool.and_eq_true, decide_eq_true_eq, and_assoc] at h
  exact h

theorem pointAt_names (s : State) (n k : Nat) :
    let names (p : Nat) : Prop := p < 24 ∧ s.tables.pointUsed p = true ∧ (s.tables.point p).node.toNat = n ∧
      (s.tables.point p).number.toNat = k
    (∀ p, s.pointAt n k = some p → names p) ∧ (s.pointAt n k = none → ∀ p, ¬names p) := by
  have h := find_named 24 (fun p => s.tables.pointUsed p && ((s.tables.point p).node.toNat = n))
    fun p => (s.tables.point p).number.toNat = k
  simp only [Bool.and_eq_true, decide_eq_true_eq, and_assoc] at h
  exact h

theorem breakerAt_names (s : State) (n k : Nat) :
    let names (b : Nat) : Prop := b < 24 ∧ s.tables.breakerUsed b = true ∧ (s.tables.breaker b).nodeOf = some n ∧
      (s.tables.breaker b).number.toNat = k
    (∀ b, s.breakerAt n k = some b → names b) ∧ (s.breakerAt n k = none → ∀ b, ¬names b) := by
  have h := find_named 24 (fun b => s.tables.breakerUsed b && ((s.tables.breaker b).nodeOf = some n))
    fun b => (s.tables.breaker b).number.toNat = k
  simp only [Bool.and_eq_true, decide_eq_true_eq, and_assoc] at h
  exact h

theorem channelAt_mem {s : State} {n k c : Nat} (h : s.channelAt n k = some c) : c ∈ s.channelsOfNode n := List.mem_of_find?_eq_some h
theorem pointAt_mem {s : State} {n k p : Nat} (h : s.pointAt n k = some p) : p ∈ s.pointsOfNode n := List.mem_of_find?_eq_some h

/-! ## The record of a LIVE node that is heard (R31, R34, R35, R39) -/

theorem stayLive_eq (s : State) (n : Nat) (seq : Byte) (d : Nat) : s.stayLive n seq d =
    if d ≤ 128 then s.setNode n ⟨.live, some seq, .running (10 * (s.tables.node n).stale.toNat)⟩
    else (s.setNode n ⟨.live, some seq, .running (10 * (s.tables.node n).stale.toNat)⟩).record
      { kind := .nodeResync, category := .notice, node := some n, value := some (value2 0 d) } := by
  unfold State.stayLive
  by_cases small : d ≤ 128
  · rw [if_pos small]
    exact if_neg (by omega)
  · rw [if_neg small]
    exact if_pos (by omega)

theorem stayLive_same (s : State) (n : Nat) (seq : Byte) (d : Nat) :
    (s.stayLive n seq d).channels = s.channels ∧ (s.stayLive n seq d).points = s.points ∧ (s.stayLive n seq d).trip = s.trip ∧
      (s.stayLive n seq d).lens = s.lens ∧ (s.stayLive n seq d).tables = s.tables := by
  unfold State.stayLive
  dsimp only
  split <;> exact ⟨rfl, rfl, rfl, rfl, rfl⟩

/-- A frame of a LIVE node that is not a duplicate: the node's record, then the delivery with its gap. -/
theorem exec_frameOfLive {s : State} {k : NodeKind} {source seq last : Byte} {payload : List Byte} {n : Nat} {c : Contents}
    {timer : Timer} (up : Up s) (source_ne : source ≠ 0) (admitted : s.admission k source payload = some (n, c))
    (live : s.node n = some ⟨.live, some last, timer⟩) (seq_ne : seq ≠ last) :
    exec (nodeCommand k source seq payload) s =
      .next ((s.stayLive n seq (seq - last).toNat).deliver n (gapOf (seq - last).toNat) c) :=
  (exec_nodeCommand_up up k source seq payload).trans (congrArg _ (nodeFrame_live source_ne admitted live seq_ne))

/-! ## The delivery from a state with the same tables -/

theorem deliver_light_from {s t : State} (h : t.tables = s.tables) (n gap : Nat) (xs : List (Nat × Bool)) :
    t.deliver n gap (.light xs) = deliverEach (s.channelAt n) (fun u c x => u.deliverLight c x.1 x.2 gap) xs 0 t := by
  rw [deliver_light, show t.channelAt n = s.channelAt n from funext (channelAt_congr h n)]

theorem deliver_current_from {s t : State} (h : t.tables = s.tables) (n gap : Nat) (xs : List Phases) :
    t.deliver n gap (.current xs) = deliverEach (s.pointAt n) (fun u p x => u.deliverPoint p gap x) xs 0 t := by
  rw [deliver_current, show t.pointAt n = s.pointAt n from funext (pointAt_congr h n)]

theorem deliver_positions_from {s t : State} (h : t.tables = s.tables) (n gap : Nat) (xs : List Position) :
    t.deliver n gap (.positions xs) = deliverEach (s.breakerAt n) (fun u b x => u.deliverPosition b x) xs 0 t := by
  rw [deliver_positions, show t.breakerAt n = s.breakerAt n from funext (breakerAt_congr h n)]

/-- What every delivery keeps, the delivery of a frame keeps. -/
theorem deliverEach_keeps {R : State → State → Prop} (hr : ∀ s, R s s) (ht : ∀ {s t u}, R s t → R t u → R s u)
    {at' : Nat → Option Nat} {f : State → Nat → α → State} (hf : ∀ s i x, R s (f s i x)) (xs : List α) (k : Nat) (s : State) :
    R s (deliverEach at' f xs k s) := by
  refine keeps_foldl hr ht (fun u x => ?_) _ s
  split
  · exact hf _ _ _
  · exact hr u

/-! ## Light samples (R45, R52, R53, R60) -/

/-- The processed samples that a delivered sample gives a NORMAL or DIRTY channel (R52). -/
def ChannelRec.given (r : ChannelRec) (level gap : Nat) : List Sample :=
  List.replicate (heldCount r gap) Sample.held ++ List.replicate (gap - heldCount r gap) Sample.missing ++ [Sample.received level]

/-- A channel record after processed samples, one by one. -/
def ChannelRec.processAll (e : ChannelEntry) (r : ChannelRec) (xs : List Sample) : ChannelRec :=
  xs.foldl (fun r x => (ChannelRec.process e r x).1) r

theorem channel_deliverLight {s : State} {c : Nat} {r : ChannelRec} (h : s.channel c = some r) (hc : r.cond = .normal ∨ r.cond = .dirty)
    (level gap : Nat) (flag : Bool) : (s.deliverLight c level flag gap).channel c =
      some (ChannelRec.processAll (s.tables.channel c) { r with raw := some level } (r.given level gap)) := by
  rw [deliverLight_eq h hc]
  refine (channel_processAll (r.given level gap) c (r := { r with raw := some level }) ?_ c).trans (if_pos rfl)
  rw [channel_setChannel_of_some h, if_pos rfl]

theorem deliverLight_noData {s : State} {c : Nat} {r : ChannelRec} (h : s.channel c = some r) (hc : r.cond = .noData)
    (level gap : Nat) (flag : Bool) : s.deliverLight c level flag gap = s.setChannel c { r with raw := some level } := by
  unfold State.deliverLight
  rw [h]
  dsimp only
  rw [hc]

/-- A sample for a channel that is not TESTING is none of the lens test's (R63). -/
theorem deliverLight_lens {s : State} {c : Nat} (h : ∀ r, s.channel c = some r → r.cond ≠ .testing)
    (level gap : Nat) (flag : Bool) : (s.deliverLight c level flag gap).lens = s.lens := by
  unfold State.deliverLight
  split
  · rfl
  · rename_i r own
    dsimp only
    split
    · exact (processDelivered_kept _ c level gap).lens
    · exact (processDelivered_kept _ c level gap).lens
    · exact absurd ‹r.cond = .testing› (h r own)
    · rfl

/-- Samples for channels of their own, none of them TESTING, leave the lens test alone. -/
theorem deliverLights_lens {at' : Nat → Option Nat} (inj : ∀ k m c, at' k = some c → at' m = some c → k = m) (gap : Nat)
    (xs : List (Nat × Bool)) : ∀ (base : Nat) (s : State),
    (∀ k c r, base ≤ k → k < base + xs.length → at' k = some c → s.channel c = some r → r.cond ≠ .testing) →
    (deliverEach at' (fun u c x => u.deliverLight c x.1 x.2 gap) xs base s).lens = s.lens := by
  induction xs with
  | nil => exact fun _ _ _ => rfl
  | cons x xs ih =>
    intro base s quiet
    rw [deliverEach_cons]
    cases first : at' base with
    | none => exact ih (base + 1) s fun k c r low high => quiet k c r (by omega) (by rw [List.length_cons]; omega)
    | some c =>
      refine (ih (base + 1) _ fun k j r low high at_k own => ?_).trans
        (deliverLight_lens (fun r => quiet base c r le_rfl (by simp) first) _ _ _)
      have other : j ≠ c := fun e => by
        subst e
        have := inj _ _ _ first at_k
        omega
      rw [channel_deliverLight_other s c _ _ j _ other] at own
      exact quiet k j r (by omega) (by rw [List.length_cons]; omega) at_k own

/-! The light contents of a frame, delivered from a state. -/

section
variable {s : State} {n gap : Nat} {xs : List (Nat × Bool)}

theorem lightSample_kept (gap : Nat) (u : State) (c : Nat) (x : Nat × Bool) : KeptByLens u (u.deliverLight c x.1 x.2 gap) :=
  deliverLight_kept u c x.1 x.2 gap

theorem channel_lightSample_other (gap : Nat) (u : State) (c : Nat) (x : Nat × Bool) (j : Nat) (h : j ≠ c) :
    (u.deliverLight c x.1 x.2 gap).channel j = u.channel j := channel_deliverLight_other u c x.1 gap j x.2 h

theorem deliver_light_kept : KeptByLens s (s.deliver n gap (.light xs)) := by
  rw [deliver_light]
  exact deliverEach_keeps KeptByLens.refl KeptByLens.trans (lightSample_kept gap) xs 0 s

theorem channel_deliver_light_other {j : Nat} (unnamed : ∀ k, k < xs.length → s.channelAt n k ≠ some j) :
    (s.deliver n gap (.light xs)).channel j = s.channel j := by
  rw [deliver_light]
  exact deliverEach_other (read := State.channel) (channel_lightSample_other gap) xs j 0 s
    fun k _ high => unnamed k (by omega)

theorem channel_deliver_light_own {k c level : Nat} {flag : Bool} {r : ChannelRec} (at_k : xs[k]? = some (level, flag))
    (named : s.channelAt n k = some c) (own : s.channel c = some r) :
    (r.cond = .normal ∨ r.cond = .dirty → (s.deliver n gap (.light xs)).channel c =
      some (ChannelRec.processAll (s.tables.channel c) { r with raw := some level } (r.given level gap))) ∧
    (r.cond = .noData → (s.deliver n gap (.light xs)).channel c = some { r with raw := some level }) := by
  obtain ⟨u, kept, same, last⟩ := deliverEach_own (read := State.channel) (channelAt_inj s n) (channel_lightSample_other gap)
    KeptByLens.refl KeptByLens.trans (lightSample_kept gap) xs 0 k s at_k (by rwa [Nat.zero_add])
  have entry : u.tables.channel c = s.tables.channel c := congrArg (fun t => t.channel c) kept.active
  rw [deliver_light, last]
  rw [own] at same
  refine ⟨fun cond => ?_, fun cond => ?_⟩
  · rw [channel_deliverLight same cond, entry]
  · rw [deliverLight_noData same cond, channel_setChannel_of_some same, if_pos rfl]

theorem deliver_light_lens
    (quiet : ∀ k c r, k < xs.length → s.channelAt n k = some c → s.channel c = some r → r.cond ≠ .testing) :
    (s.deliver n gap (.light xs)).lens = s.lens := by
  rw [deliver_light]
  exact deliverLights_lens (channelAt_inj s n) gap xs 0 s fun k c r _ high => quiet k c r (by omega)

end

/-- Settles O17: the node's record by `stayLive_eq`, each channel by the sample that is for it, and the delivery of one sample. -/
theorem lightSampleAfterGap : Obligations.lightSampleAfterGap := by
  unfold Obligations.lightSampleAfterGap
  refine ⟨fun s source seq last payload n samples timer up source_ne admitted live seq_ne => ?_,
    fun s c level gap flag r own cond => deliverLight_eq own cond level gap flag, channelAt_names⟩
  intro d gap stamped heard
  have delivered : exec (.lightSample source seq payload) s = .next ((s.stayLive n seq d).deliver n gap (.light samples)) :=
    exec_frameOfLive up source_ne admitted live seq_ne
  obtain ⟨channels, points, trip, lens, tables⟩ := stayLive_same s n seq d
  rw [show s.stayLive n seq d = heard from stayLive_eq s n seq d] at delivered channels points trip lens tables
  have named := channelAt_congr tables n
  have kept : KeptByLens heard (heard.deliver n gap (.light samples)) := deliver_light_kept
  refine ⟨_, delivered, deliver_light_from tables n gap samples, fun k level flag c r at_k at_c own => ?_, fun j unnamed => ?_,
    kept.nodes, kept.points.trans points, kept.positions.trans (congrArg _ trip), fun quiet => ?_⟩
  · rw [← named] at at_c
    rw [← State.channel_congr channels] at own
    rw [← tables]
    exact channel_deliver_light_own at_k at_c own
  · rw [channel_deliver_light_other fun k high => by rw [named]; exact unnamed k high, State.channel_congr channels]
  · refine (deliver_light_lens fun k c r high at_c own => ?_).trans lens
    rw [named] at at_c
    rw [State.channel_congr channels] at own
    exact quiet k c r high at_c own

/-! ## Current samples (R70 to R73) -/

/-- Some phase, scaled, is at or above pickup (R71, R72). -/
def PointEntry.overPickup (e : PointEntry) (x : Phases) : Prop :=
  e.pickup.toNat ≤ scaled e x.m1 ∨ e.pickup.toNat ≤ scaled e x.m2 ∨ e.pickup.toNat ≤ scaled e x.m3

theorem overPickup_iff (e : PointEntry) (x : Phases) : e.overPickup x ↔ e.pickup.toNat ≤ x.imax e := by
  unfold PointEntry.overPickup Phases.imax
  rw [le_max_iff, le_max_iff]

theorem stretchAfter_over {e : PointEntry} {x : Phases} (h : e.overPickup x) (stretch : Nat) :
    stretchAfter e stretch x = e.stretch.toNat :=
  if_pos ((overPickup_iff e x).1 h)

theorem stretchAfter_under {e : PointEntry} {x : Phases} (h : ¬e.overPickup x) (stretch : Nat) :
    stretchAfter e stretch x = stretch - 1 :=
  if_neg (h ∘ (overPickup_iff e x).2)

/-! The current contents of a frame, delivered from a state. -/

section
variable {s : State} {n gap : Nat} {xs : List Phases}

theorem deliver_current_kept : KeptByCurrent s (s.deliver n gap (.current xs)) := by
  rw [deliver_current]
  exact deliverEach_keeps KeptByCurrent.refl KeptByCurrent.trans (fun u p x => deliverPoint_kept u p gap x) xs 0 s

theorem point_deliverPoint_other (u : State) (p : Nat) (x : Phases) (j : Nat) (h : j ≠ p) :
    (u.deliverPoint p gap x).point j = u.point j :=
  (point_deliverPoint u p gap j x).trans (if_neg h)

theorem point_deliver_current_other {j : Nat} (unnamed : ∀ k, k < xs.length → s.pointAt n k ≠ some j) :
    (s.deliver n gap (.current xs)).point j = s.point j := by
  rw [deliver_current]
  exact deliverEach_other (read := State.point) point_deliverPoint_other xs j 0 s fun k _ high => unnamed k (by omega)

theorem point_deliver_current_own {k p : Nat} {x : Phases} (at_k : xs[k]? = some x) (named : s.pointAt n k = some p) :
    (s.deliver n gap (.current xs)).point p =
      (s.point p).map fun r => { r with stretch := stretchAfter (s.tables.point p) (r.stretch - gap) x } := by
  obtain ⟨u, kept, same, last⟩ := deliverEach_own (f := fun u p x => u.deliverPoint p gap x) (read := State.point)
    (pointAt_inj s n) point_deliverPoint_other KeptByCurrent.refl KeptByCurrent.trans
    (fun u p x => deliverPoint_kept u p gap x) xs 0 k s at_k (by rwa [Nat.zero_add])
  have entry : u.tables.point p = s.tables.point p := congrArg (fun t => t.point p) kept.active
  rw [deliver_current, last, point_deliverPoint, if_pos rfl, same, entry]

end

/-- Settles O21: the node's record by `stayLive_eq`, and each point by the sample that is for it. -/
theorem currentSampleStretch : Obligations.currentSampleStretch := by
  unfold Obligations.currentSampleStretch
  refine ⟨fun s source seq last payload n samples timer up source_ne admitted live seq_ne => ?_, pointAt_names⟩
  intro d gap stamped heard
  have delivered : exec (.currentSample source seq payload) s = .next ((s.stayLive n seq d).deliver n gap (.current samples)) :=
    exec_frameOfLive up source_ne admitted live seq_ne
  obtain ⟨channels, points, trip, lens, tables⟩ := stayLive_same s n seq d
  rw [show s.stayLive n seq d = heard from stayLive_eq s n seq d] at delivered channels points trip lens tables
  have named := pointAt_congr tables n
  have kept : KeptByCurrent heard (heard.deliver n gap (.current samples)) := deliver_current_kept
  refine ⟨_, delivered, deliver_current_from tables n gap samples, fun k x p r at_k at_p own => ?_, fun j unnamed => ?_,
    kept.nodes, kept.channels.trans channels, kept.positions.trans (congrArg _ trip), kept.lens.trans lens⟩
  · intro e scale overPickup
    rw [point_deliver_current_own at_k ((named k).trans at_p), State.point_congr points, own, tables, Option.map_some]
    refine ⟨fun above => ?_, fun under => ?_⟩
    · rw [stretchAfter_over (e := e) above]
    · rw [stretchAfter_under (e := e) under]
  · rw [point_deliver_current_other fun k high => by rw [named]; exact unnamed k high, State.point_congr points]

end Sys2Proof.Machine
end

section
/-! SUPPORT. The reports of a change of a node's live state (R40): the new cut set while the loop is OPEN, and what the channels,
points and breakers of the node become (R60, R61, R76, R77, R107). -/

namespace Sys2Proof.Machine

open Sys2Proof.Safety

/-! ## What the reports leave alone -/

/-- Kept by the reports to channels, points and breakers, and by a new cut set: the nodes, the lens test, and all records but those of
trip demands. -/
structure KeptByReports (s t : State) : Prop extends Kept s t where
  nodes : t.nodes = s.nodes
  lens  : t.lens = s.lens
  only  : OnlyTrips s t

theorem KeptByReports.refl (s : State) : KeptByReports s s := ⟨.refl s, rfl, rfl, .refl s⟩

theorem KeptByReports.trans {s t u : State} (h : KeptByReports s t) (k : KeptByReports t u) : KeptByReports s u :=
  ⟨h.toKept.trans k.toKept, k.nodes.trans h.nodes, k.lens.trans h.lens, h.only.trans k.only⟩

/-- Kept by a new cut set: the channels, points and positions as well (R20, R21). -/
structure Recut (s t : State) : Prop extends KeptByReports s t where
  channels  : t.channels = s.channels
  points    : t.points = s.points
  positions : t.trip.positions = s.trip.positions

theorem Recut.refl (s : State) : Recut s s := ⟨.refl s, rfl, rfl, rfl⟩

theorem Recut.trans {s t u : State} (h : Recut s t) (k : Recut t u) : Recut s u :=
  ⟨h.toKeptByReports.trans k.toKeptByReports, k.channels.trans h.channels, k.points.trans h.points, k.positions.trans h.positions⟩

theorem drawn_recut (s : State) : Recut s { s with draws := s.draws + 1 } :=
  ⟨⟨by constructor <;> rfl, rfl, rfl, .of_same rfl rfl rfl rfl rfl⟩, rfl, rfl, rfl⟩

theorem recomputeCut_recut (s : State) : Recut s s.recomputeCut :=
  have k := recomputeCut_kept s
  ⟨⟨recomputeCut_keeps s, k.nodes, recomputeCut_lens s, recomputeCut_onlyTrips s⟩, k.channels, k.points, k.positions⟩

/-- The neighbours are told, with a new cut set before, after, or not at all (R40, log entry 8). -/
theorem tellNeighbours_recut (tell : State → State) (s : State) : ∃ u, Recut s u ∧ Recut (tell u) (s.tellNeighbours tell) := by
  have drawn := drawn_recut s
  unfold State.tellNeighbours
  split
  · dsimp only
    split
    · exact ⟨_, drawn.trans (recomputeCut_recut _), .refl _⟩
    · exact ⟨_, drawn, recomputeCut_recut _⟩
  · exact ⟨s, .refl s, .refl _⟩

/-! ## Reports to the entries of a list

Each report changes one record; a second report to the same entry would change nothing more. -/

theorem foldl_own {β : Type} {f : State → Nat → State} {read : State → Nat → Option β} {g : Tables → Nat → β → β}
    (tables : ∀ s i, (f s i).tables = s.tables)
    (own : ∀ s i j, read (f s i) j = if j = i then (read s i).map (g s.tables i) else read s j)
    (again : ∀ t i x, g t i (g t i x) = g t i x) (l : List Nat) : ∀ (s : State) (j : Nat),
    read (l.foldl f s) j = if j ∈ l then (read s j).map (g s.tables j) else read s j := by
  induction l with
  | nil => exact fun s j => (if_neg (List.not_mem_nil)).symm
  | cons i l ih =>
    intro s j
    rw [List.foldl_cons, ih, tables, own]
    by_cases e : j = i
    · subst e
      rw [if_pos rfl, if_pos List.mem_cons_self, Option.map_map,
        show g s.tables j ∘ g s.tables j = g s.tables j from funext (again s.tables j), ite_self]
    · simp [e]

/-- A report that leaves the record of its entry leaves every record. -/
theorem own_unchanged {β : Type} {read : Nat → Option β} {i : Nat} {x : Option β} (h : read i = x) (j : Nat) :
    read j = if j = i then x else read j := by
  by_cases e : j = i
  · rw [if_pos e, e, h]
  · rw [if_neg e]

theorem channel_changeChannel_of_some {s : State} {c : Nat} {r : ChannelRec} (h : s.channel c = some r) (old new : ChannelRec) (j : Nat) :
    (s.changeChannel c old new).channel j = if j = c then some new else s.channel j :=
  (channel_changeChannel s c j old new).trans (channel_setChannel_of_some h j new)

theorem point_lt {s : State} {p : Nat} {r : PointRec} (h : s.point p = some r) : p < Config.pointCount := by
  by_contra high
  unfold State.point at h
  rw [Vector.getElem?_eq_none (by omega)] at h
  cases h

theorem point_changePoint_of_some {s : State} {p : Nat} {r : PointRec} (h : s.point p = some r) (old new : PointRec) (j : Nat) :
    (s.changePoint p old new).point j = if j = p then some new else s.point j := by
  rw [point_changePoint, State.point_setPoint]
  by_cases e : p = j
  · subst e
    rw [if_pos ⟨rfl, point_lt h⟩, if_pos rfl]
  · rw [if_neg fun k => e k.1, if_neg fun k => e k.symm]

/-! ## Channels (R60, R61) -/

/-- The record of a channel whose node has become LIVE (R61). -/
def ChannelRec.heard (e : ChannelEntry) (r : ChannelRec) : ChannelRec :=
  if r.cond = .noData then ({ r with cond := r.standing.cond }).withEligibility e else r

theorem Standing.cond_data (x : Standing) : x.cond = .normal ∨ x.cond = .dirty := by
  cases x
  · exact .inl rfl
  · exact .inr rfl

theorem Standing.cond_ne_noData (x : Standing) : x.cond ≠ .noData := by cases x <;> exact nofun

theorem heard_noData {r : ChannelRec} (h : r.cond = .noData) (e : ChannelEntry) :
    r.heard e = ({ r with cond := r.standing.cond }).withEligibility e := if_pos h

theorem heard_heard (e : ChannelEntry) (r : ChannelRec) : (r.heard e).heard e = r.heard e := by
  by_cases h : r.cond = .noData
  · rw [heard_noData h]
    exact if_neg r.standing.cond_ne_noData
  · rw [show r.heard e = r from if_neg h]
    exact if_neg h

theorem channel_channelLive (s : State) (c j : Nat) : (s.channelLive c).channel j =
    if j = c then (s.channel c).map (ChannelRec.heard (s.tables.channel c)) else s.channel j := by
  unfold State.channelLive
  cases h : s.channel c with
  | none => exact own_unchanged h j
  | some r =>
    dsimp only
    split
    · rename_i noData
      rw [channel_changeChannel_of_some h, Option.map_some, heard_noData noData]
      rfl
    · rename_i data
      rw [Option.map_some, show r.heard _ = r from if_neg data]
      exact own_unchanged h j

theorem channel_channelStale (s : State) (c j : Nat) : (s.channelStale c).channel j =
    if j = c then (s.channel c).map ChannelRec.noData else s.channel j := by
  unfold State.channelStale
  cases h : s.channel c with
  | none => exact own_unchanged h j
  | some r => exact channel_changeChannel_of_some h _ _ j

/-! ## Points (R76, R77) -/

/-- The record of a point whose node has become LIVE (R77). -/
def PointRec.heard (r : PointRec) : PointRec := if r.cond = .noData then ⟨0, .normal⟩ else r

theorem PointRec.heard_heard (r : PointRec) : r.heard.heard = r.heard := by
  by_cases h : r.cond = .noData
  · rw [show r.heard = ⟨0, .normal⟩ from if_pos h]
    rfl
  · rw [show r.heard = r from if_neg h]
    exact if_neg h

theorem point_pointLive (s : State) (p j : Nat) : (s.pointLive p).point j =
    if j = p then (s.point p).map PointRec.heard else s.point j := by
  unfold State.pointLive
  cases h : s.point p with
  | none => exact own_unchanged h j
  | some r =>
    dsimp only
    split
    · rename_i noData
      rw [point_changePoint_of_some h, Option.map_some, show r.heard = ⟨0, .normal⟩ from if_pos noData]
    · rename_i data
      rw [Option.map_some, show r.heard = r from if_neg data]
      exact own_unchanged h j

theorem point_pointStale (s : State) (p j : Nat) : (s.pointStale p).point j =
    if j = p then (s.point p).map fun _ => ⟨0, .noData⟩ else s.point j := by
  unfold State.pointStale
  cases h : s.point p with
  | none => exact own_unchanged h j
  | some r => exact point_changePoint_of_some h _ _ j

/-! ## Positions (R107) -/

theorem position_positionUnknown (s : State) (b j : Nat) : (s.positionUnknown b).position j =
    if j = b then (s.position b).map fun _ => .unknown else s.position j := by
  unfold State.positionUnknown
  cases h : s.position b with
  | none => exact own_unchanged h j
  | some p =>
    dsimp only
    rw [State.position_setPosition]
    by_cases e : b = j
    · rw [if_pos ⟨e, e ▸ position_lt h⟩, if_pos e.symm, Option.map_some]
    · rw [if_neg fun k => e k.1, if_neg fun k => e k.symm]

/-! ## A node has become LIVE (R30, R40) -/

theorem channel_tellLive (n : Nat) (s : State) (j : Nat) : (State.tellLive n s).channel j =
    if j ∈ s.channelsOfNode n then (s.channel j).map (ChannelRec.heard (s.tables.channel j)) else s.channel j := by
  have points := keeps_foldl KeptByCurrent.refl KeptByCurrent.trans pointLive_kept (s.pointsOfNode n)
    ((s.channelsOfNode n).foldl State.channelLive s)
  unfold State.tellLive
  rw [State.channel_congr points.channels]
  exact foldl_own (g := fun t i => ChannelRec.heard (t.channel i)) (fun s c => (channelLive_kept s c).active) channel_channelLive
    (fun t i => heard_heard (t.channel i)) _ s j

theorem point_tellLive (n : Nat) (s : State) (j : Nat) : (State.tellLive n s).point j =
    if j ∈ s.pointsOfNode n then (s.point j).map PointRec.heard else s.point j := by
  have channels := keeps_foldl KeptByLight.refl KeptByLight.trans channelLive_kept (s.channelsOfNode n) s
  unfold State.tellLive
  rw [foldl_own (g := fun _ _ => PointRec.heard) (fun s p => (pointLive_kept s p).active) point_pointLive
    (fun _ _ => PointRec.heard_heard), State.point_congr channels.points]

theorem channelsOfNode_congr {s t : State} (h : t.tables = s.tables) (n : Nat) : t.channelsOfNode n = s.channelsOfNode n := by
  unfold State.channelsOfNode
  rw [h]

theorem pointsOfNode_congr {s t : State} (h : t.tables = s.tables) (n : Nat) : t.pointsOfNode n = s.pointsOfNode n := by
  unfold State.pointsOfNode
  rw [h]

theorem breakersOfNode_congr {s t : State} (h : t.tables = s.tables) (n : Nat) : t.breakersOfNode n = s.breakersOfNode n := by
  unfold State.breakersOfNode
  rw [h]

section
variable (s : State) (n : Nat) (r : NodeRec) (seq : Byte)

theorem channel_becomeLive (j : Nat) : (s.becomeLive n r seq).channel j =
    if j ∈ s.channelsOfNode n then (s.channel j).map (ChannelRec.heard (s.tables.channel j)) else s.channel j := by
  obtain ⟨u, before, after⟩ := tellNeighbours_recut (State.tellLive n) (s.livening n r seq)
  have tables : u.tables = s.tables := before.active
  rw [becomeLive_eq]
  refine (State.channel_congr after.channels j).trans ?_
  rw [channel_tellLive, channelsOfNode_congr tables, tables, State.channel_congr before.channels]
  rfl

theorem point_becomeLive (j : Nat) : (s.becomeLive n r seq).point j =
    if j ∈ s.pointsOfNode n then (s.point j).map PointRec.heard else s.point j := by
  obtain ⟨u, before, after⟩ := tellNeighbours_recut (State.tellLive n) (s.livening n r seq)
  have tables : u.tables = s.tables := before.active
  rw [becomeLive_eq]
  refine (State.point_congr after.points j).trans ?_
  rw [point_tellLive, pointsOfNode_congr tables, State.point_congr before.points]
  rfl

theorem staleLimit_told :
    ((s.livening n r seq).tellNeighbours (State.tellLive n)).staleLimit n = 10 * (s.tables.node n).stale.toNat :=
  congrArg (fun t : Tables => 10 * (t.node n).stale.toNat) (tellNeighbours_kept (tellLive_kept n) (s.livening n r seq)).active

theorem node_becomeLive {s : State} {n : Nat} {q : NodeRec} (h : s.node n = some q) (m : Nat) : (s.becomeLive n r seq).node m =
    if m = n then some ⟨.live, some seq, .running (10 * (s.tables.node n).stale.toNat)⟩ else s.node m := by
  have told : ∀ m, ((s.livening n r seq).tellNeighbours (State.tellLive n)).node m = (s.livening n r seq).node m :=
    State.node_congr (tellNeighbours_nodes (tellLive_byDemands n) _)
  rw [becomeLive_eq, staleLimit_told, State.node_setNode]
  by_cases e : n = m
  · rw [if_pos ⟨e, e ▸ node_lt h⟩, if_pos e.symm]
  · rw [if_neg fun k => e k.1, if_neg fun k => e k.symm, told]
    exact node_setNode_other s (Ne.symm e) _

/-- With no channel or point of the node, the Loop Port alone acts on its becoming LIVE (R30, R40). -/
theorem becomeLive_untold (channels : s.channelsOfNode n = []) (points : s.pointsOfNode n = []) : s.becomeLive n r seq =
    (if s.loop.state = .loopOpen then ({ s.livening n r seq with draws := s.draws + 1 } : State).recomputeCut
      else s.livening n r seq).setNode n ⟨.live, some seq, .running (10 * (s.tables.node n).stale.toNat)⟩ := by
  have untold : ∀ u : State, u.tables = s.tables → State.tellLive n u = u := fun u h => by
    unfold State.tellLive
    rw [channelsOfNode_congr h, pointsOfNode_congr h, channels, points]
    rfl
  have told : (s.livening n r seq).tellNeighbours (State.tellLive n) = if s.loop.state = .loopOpen then
      ({ s.livening n r seq with draws := s.draws + 1 } : State).recomputeCut else s.livening n r seq := by
    have drawn := untold { s.livening n r seq with draws := s.draws + 1 } rfl
    unfold State.tellNeighbours
    split
    · rename_i isOpen
      rw [if_pos (show s.loop.state = .loopOpen from isOpen)]
      dsimp only
      split
      · exact untold _ (recomputeCut_keeps _).active
      · exact congrArg State.recomputeCut drawn
    · rename_i notOpen
      rw [if_neg (show ¬s.loop.state = .loopOpen from notOpen)]
      exact untold _ rfl
  rw [becomeLive_eq, staleLimit_told, told]

end

end Sys2Proof.Machine
end

section
/-! SUPPORT. A node that becomes STALE (R32, R40): its channels, points and breakers lose their data, and a test of one of its channels
ends with no TEST(off) (R143). -/

namespace Sys2Proof.Machine

open Sys2Proof.Safety

/-! ## Channels, points and breakers (R60, R76, R107) -/

/-- The channels of a node that has become STALE (R60). -/
def State.channelsStale (n : Nat) (s : State) : State := (s.channelsOfNode n).foldl State.channelStale s

/-- The points of a node that has become STALE (R76). -/
def State.pointsStale (n : Nat) (s : State) : State := (s.pointsOfNode n).foldl State.pointStale s

/-- The breakers of a node that has become STALE (R107). -/
def State.positionsUnknown (n : Nat) (s : State) : State := (s.breakersOfNode n).foldl State.positionUnknown s

/-- The reports to the channels, points and breakers of a node that has become STALE, before the lens test is told. -/
def State.loseData (n : Nat) (s : State) : State := ((s.channelsStale n).pointsStale n).positionsUnknown n

theorem tellStale_eq (n : Nat) (s : State) : State.tellStale n s = (s.loseData n).lensNodeStale n := rfl

section
variable (n : Nat) (s : State)

theorem channelsStale_kept : KeptByLight s (s.channelsStale n) := keeps_foldl KeptByLight.refl KeptByLight.trans channelStale_kept _ s

theorem channelsStale_only : OnlyTrips s (s.channelsStale n) :=
  keeps_foldl OnlyRecords.refl OnlyRecords.trans channelStale_onlyTrips _ s

theorem pointsStale_kept : KeptByCurrent s (s.pointsStale n) := keeps_foldl KeptByCurrent.refl KeptByCurrent.trans pointStale_kept _ s

theorem pointsStale_only : OnlyTrips s (s.pointsStale n) := keeps_foldl OnlyRecords.refl OnlyRecords.trans pointStale_onlyTrips _ s

theorem positionUnknown_reports (b : Nat) :
    KeptByReports s (s.positionUnknown b) ∧ (s.positionUnknown b).channels = s.channels ∧
      (s.positionUnknown b).points = s.points := by
  have only := positionUnknown_onlyTrips s b
  have kept := positionUnknown_kept s b
  revert only kept
  unfold State.positionUnknown
  split <;> exact fun only kept => ⟨⟨kept, rfl, rfl, only⟩, rfl, rfl⟩

theorem positionsUnknown_reports : KeptByReports s (s.positionsUnknown n) ∧ (s.positionsUnknown n).channels = s.channels ∧
    (s.positionsUnknown n).points = s.points :=
  keeps_foldl (R := fun s t => KeptByReports s t ∧ t.channels = s.channels ∧ t.points = s.points) (fun s => ⟨.refl s, rfl, rfl⟩)
    (fun ⟨h, c, p⟩ ⟨h', c', p'⟩ => ⟨h.trans h', c'.trans c, p'.trans p⟩) positionUnknown_reports _ s

theorem loseData_reports : KeptByReports s (s.loseData n) := by
  have lit := channelsStale_kept n s
  have cur := pointsStale_kept n (s.channelsStale n)
  have first : KeptByReports s (s.channelsStale n) := ⟨lit.toKept, lit.nodes, lit.lens, channelsStale_only n s⟩
  exact (first.trans ⟨cur.toKept, cur.nodes, cur.lens, pointsStale_only n _⟩).trans (positionsUnknown_reports n _).1

theorem channel_loseData (j : Nat) : (s.loseData n).channel j =
    if j ∈ s.channelsOfNode n then (s.channel j).map ChannelRec.noData else s.channel j := by
  obtain ⟨-, channels, -⟩ := positionsUnknown_reports n ((s.channelsStale n).pointsStale n)
  unfold State.loseData
  rw [State.channel_congr channels, State.channel_congr (pointsStale_kept n _).channels]
  exact foldl_own (g := fun _ _ => ChannelRec.noData) (fun s c => (channelStale_kept s c).active) channel_channelStale
    (fun _ _ _ => rfl) _ s j

theorem point_loseData (j : Nat) : (s.loseData n).point j =
    if j ∈ s.pointsOfNode n then (s.point j).map fun _ => ⟨0, .noData⟩ else s.point j := by
  obtain ⟨-, -, points⟩ := positionsUnknown_reports n ((s.channelsStale n).pointsStale n)
  have before := channelsStale_kept n s
  unfold State.loseData
  rw [State.point_congr points, ← pointsOfNode_congr before.active, ← State.point_congr before.points]
  exact foldl_own (read := State.point) (g := fun _ _ (_ : PointRec) => ⟨0, .noData⟩) (fun s p => (pointStale_kept s p).active)
    point_pointStale (fun _ _ _ => rfl) _ (s.channelsStale n) j

theorem position_loseData (j : Nat) : (s.loseData n).position j =
    if j ∈ s.breakersOfNode n then (s.position j).map fun _ => .unknown else s.position j := by
  have lit := channelsStale_kept n s
  have cur := pointsStale_kept n (s.channelsStale n)
  unfold State.loseData
  rw [← breakersOfNode_congr (cur.active.trans lit.active), ← State.position_congr (cur.positions.trans lit.positions)]
  exact foldl_own (read := State.position) (g := fun _ _ (_ : Position) => .unknown) (fun s b => (positionUnknown_kept s b).active)
    position_positionUnknown (fun _ _ _ => rfl) _ ((s.channelsStale n).pointsStale n) j

end

/-! ## The lens test (R143, R146) -/

/-- Records at the device time as it stands, the LENS_RESULT records among them these; the CONTROL queue stands. -/
structure TestOutcome (results : List RecordBody) (s t : State) : Prop where
  time    : t.deviceTime = s.deviceTime
  control : t.loop.controlQ = s.loop.controlQ
  pool    : ∃ made : List RecordBody, t.pool = made.foldl (fun p b => p.take s.deviceTime b) s.pool ∧
    made.filter (fun b => b.kind = .lensResult) = results

theorem TestOutcome.trans {rs qs : List RecordBody} {s t u : State} (h : TestOutcome rs s t) (k : TestOutcome qs t u) :
    TestOutcome (rs ++ qs) s u := by
  obtain ⟨m, hm, hr⟩ := h.pool
  obtain ⟨l, hl, hq⟩ := k.pool
  exact ⟨k.time.trans h.time, k.control.trans h.control, m ++ l, by rw [hl, hm, List.foldl_append, h.time],
    by rw [List.filter_append, hr, hq]⟩

theorem OnlySamples.noOutcome {s t : State} (h : OnlySamples s t) : TestOutcome [] s t := by
  obtain ⟨made, pool, kinds⟩ := h.pool
  exact ⟨h.time, h.control, made, pool, List.filter_eq_nil_iff.2 fun b hb => by simpa using (kinds b hb).1⟩

theorem KeptByReports.noOutcome {s t : State} (h : KeptByReports s t) : TestOutcome [] s t :=
  OnlySamples.noOutcome (OnlyTrips.toSamples h.only)

/-- With its node STALE the lamp is not told (R143): a held TEST(on) is removed, and nothing else happens. -/
theorem putOutLamp_stale {s : State} {c : Nat} {q : Option Byte} {timer : Timer}
    (stale : s.node (s.tables.channel c).node.toNat = some ⟨.stale, q, timer⟩) :
    s.putOutLamp c = s.setLens { s.lens with held := s.lens.held.filter fun f => !f.on } := by
  unfold State.putOutLamp
  split
  · rfl
  · rename_i off
    have none_on : s.lens.held.filter (fun f => !f.on) = s.lens.held := List.filter_eq_self.2 fun f hf => by
      by_contra on
      exact off (List.any_eq_true.2 ⟨f, hf, by simpa using on⟩)
    rw [show s.node (s.channelEntry c).node.toNat = _ from stale, none_on]
    rfl

/-- The ending of a test whose channel's node is STALE: its one record, and the engine. -/
theorem endTest_stale {s : State} {c : Nat} {q : Option Byte} {timer : Timer}
    (stale : s.node (s.tables.channel c).node.toNat = some ⟨.stale, q, timer⟩) (r : LensResult) :
    TestOutcome [s.lensRecord c r] s (s.endTest c r none) ∧ (s.endTest c r none).lens = { s.lens with
      state := .idle, channel := none, startWait := .stopped, held := s.lens.held.filter fun f => !f.on } := by
  set v := (s.record (s.lensRecord c r)).leaveTesting c none with hv
  have kept : KeptByLight s v := (record_kept s _).toKeptBySections.toKeptByLight.trans (leaveTesting_kept _ c none)
  have made : TestOutcome [s.lensRecord c r] s (s.record (s.lensRecord c r)) := ⟨rfl, rfl, [s.lensRecord c r], rfl, rfl⟩
  have outcome := made.trans (OnlySamples.noOutcome (leaveTesting_onlySamples _ c none))
  have stale' : v.node (v.tables.channel c).node.toNat = some ⟨.stale, q, timer⟩ := by
    rw [show v.tables = s.tables from kept.active, State.node_congr kept.nodes, stale]
  have ends : s.endTest c r none = (v.setLens { v.lens with held := v.lens.held.filter fun f => !f.on }).idleLens :=
    congrArg State.idleLens (putOutLamp_stale stale')
  rw [ends]
  refine ⟨⟨outcome.time, outcome.control, outcome.pool⟩, ?_⟩
  rw [← kept.lens]
  rfl

/-- The ending of a test leaves a NO_DATA channel as it is (R64). -/
theorem channel_endTest_noData {s : State} {c : Nat} {r : ChannelRec} (own : s.channel c = some r) (cond : r.cond = .noData)
    (result : LensResult) (a : Option Nat) (j : Nat) : (s.endTest c result a).channel j = s.channel j := by
  have stays : (s.record (s.lensRecord c result)).leaveTesting c a = s.record (s.lensRecord c result) := by
    unfold State.leaveTesting
    rw [show (s.record (s.lensRecord c result)).channel c = some r from own]
    exact if_pos cond
  refine (State.channel_congr (putOutLamp_same _ c).1 j).trans ?_
  rw [stays]
  rfl

/-- The test of a channel of a node that has become STALE ends with its one record, and no other test does (R143). -/
theorem lensNodeStale_cases {s : State} {n : Nat} {q : Option Byte} {timer : Timer} (stale : s.node n = some ⟨.stale, q, timer⟩) :
    ∃ results, TestOutcome results s (s.lensNodeStale n) ∧
      ((results = [] ∧ s.lensNodeStale n = s ∧
        (s.lens.state = .idle ∨ ∀ c, s.lens.channel = some c → (s.tables.channel c).node.toNat ≠ n)) ∨
      ∃ c, results = [s.lensRecord c .noResponse] ∧ s.lensNodeStale n = s.endTest c .noResponse none ∧
        s.lens.state ≠ .idle ∧ s.lens.channel = some c ∧ (s.tables.channel c).node.toNat = n) := by
  have nothing : TestOutcome [] s s := (KeptByReports.refl s).noOutcome
  unfold State.lensNodeStale
  split
  · exact ⟨[], nothing, .inl ⟨rfl, rfl, .inl ‹_›⟩⟩
  · rename_i free _
    exact ⟨[], nothing, .inl ⟨rfl, rfl, .inr fun c h => by rw [free] at h; cases h⟩⟩
  · rename_i c under busy
    split
    · rename_i named
      exact ⟨_, (endTest_stale (by rw [show (s.tables.channel c).node.toNat = n from named]; exact stale) .noResponse).1,
        .inr ⟨c, rfl, rfl, fun idle => busy idle, under, named⟩⟩
    · rename_i other
      refine ⟨[], nothing, .inl ⟨rfl, rfl, .inr fun c' h => ?_⟩⟩
      cases under.symm.trans h
      exact other

/-- The end of a test leaves the NO_DATA channels as they are, and every channel but its own. -/
theorem channel_lensNodeStale (s : State) (n j : Nat) (h : ∀ c, s.lens.channel = some c → c = j →
    ∃ r, s.channel c = some r ∧ r.cond = .noData) : (s.lensNodeStale n).channel j = s.channel j := by
  unfold State.lensNodeStale
  split
  · rfl
  · rfl
  · rename_i c under _
    split
    · by_cases e : c = j
      · obtain ⟨r, own, cond⟩ := h c under e
        exact channel_endTest_noData own cond _ _ j
      · exact channel_endTest_other s c j _ _ (Ne.symm e)
    · rfl

theorem channelsOfNode_node {s : State} {n c : Nat} (h : c ∈ s.channelsOfNode n) : (s.tables.channel c).node.toNat = n := by
  have named := (List.mem_filter.1 h).2
  rw [Bool.and_eq_true, decide_eq_true_eq] at named
  exact named.2

/-- What a state is to the one before the reports to the channels, points and breakers of a node that has become STALE. -/
structure LostData (n : Nat) (s t : State) : Prop where
  reports  : KeptByReports s t
  channel  : ∀ j, t.channel j = if j ∈ s.channelsOfNode n then (s.channel j).map ChannelRec.noData else s.channel j
  point    : ∀ j, t.point j = if j ∈ s.pointsOfNode n then (s.point j).map fun _ => ⟨0, .noData⟩ else s.point j
  position : ∀ j, t.position j = if j ∈ s.breakersOfNode n then (s.position j).map fun _ => .unknown else s.position j

theorem loseData_lost {n : Nat} {s u : State} (h : Recut s u) : LostData n s (u.loseData n) where
  reports := h.toKeptByReports.trans (loseData_reports n u)
  channel j := by rw [channel_loseData, channelsOfNode_congr h.active, State.channel_congr h.channels]
  point j := by rw [point_loseData, pointsOfNode_congr h.active, State.point_congr h.points]
  position j := by rw [position_loseData, breakersOfNode_congr h.active, State.position_congr h.positions]

theorem staleNode {s : State} {n : Nat} {r : NodeRec} (h : s.node n = some r) :
    (s.staling n).node n = some ⟨.stale, none, .stopped⟩ :=
  (State.node_setNode s n n _).trans (if_pos ⟨rfl, node_lt h⟩)

/-- The event of a node that becomes STALE (R32): the data are lost, and the lens test is told, with a new cut set before or after. -/
theorem exec_staleTimerExpiry {s : State} {n left : Nat} {last : Option Byte} (up : Up s)
    (live : s.node n = some ⟨.live, last, .running left⟩) : ∃ w t, exec (.staleTimerExpiry n) s = .next t ∧
      t.nodes = (s.staling n).nodes ∧ LostData n (s.staling n) w ∧ Recut (w.lensNodeStale n) t := by
  obtain ⟨u, before, after⟩ := tellNeighbours_recut (State.tellStale n) (s.staling n)
  rw [tellStale_eq] at after
  exact ⟨u.loseData n, _, congrArg Host.Outcome.next ((outsideReset_up up _).trans (staleExpiry_eq live rfl rfl)),
    tellNeighbours_nodes (tellStale_byDemands n) _, loseData_lost before, after⟩

/-- Settles O16: the data are lost before the lens test is told, and the test ends when its channel is the node's. -/
theorem staleNodeLosesItsData : Obligations.staleNodeLosesItsData := by
  unfold Obligations.staleNodeLosesItsData
  intro s n last left up live
  obtain ⟨w, t, expires, nodes, lost, after⟩ := exec_staleTimerExpiry up live
  have kept := lensNodeStale_kept w n
  have whole := (Kept.trans lost.reports.toKept kept.toKept).trans after.toKept
  have tables : w.tables = s.tables := lost.reports.active
  have lens : w.lens = s.lens := lost.reports.lens
  have point : ∀ j, t.point j = if j ∈ s.pointsOfNode n then (s.point j).map fun _ => ⟨0, .noData⟩ else s.point j := fun j =>
    (State.point_congr (after.points.trans kept.points) j).trans (lost.point j)
  have position : ∀ j, t.position j = if j ∈ s.breakersOfNode n then (s.position j).map fun _ => .unknown else s.position j :=
    fun j => (State.position_congr (after.positions.trans kept.positions) j).trans (lost.position j)
  have stale : w.node n = some ⟨.stale, none, .stopped⟩ := (State.node_congr lost.reports.nodes n).trans (staleNode live)
  have dark : ∀ c r, c ∈ s.channelsOfNode n → s.channel c = some r → w.channel c = some r.noData := fun c r mem own =>
    (lost.channel c).trans ((if_pos mem).trans (congrArg (Option.map ChannelRec.noData) own))
  obtain ⟨results, tested, ended⟩ := lensNodeStale_cases stale
  have outcome := (lost.reports.noOutcome.trans tested).trans after.noOutcome
  rw [List.nil_append, List.append_nil] at outcome
  have channel : ∀ j, t.channel j = (w.lensNodeStale n).channel j := State.channel_congr after.channels
  have others : ∀ j, j ∉ s.channelsOfNode n → w.channel j = s.channel j := fun j out => (lost.channel j).trans (if_neg out)
  refine ⟨t, expires, (State.node_congr nodes n).trans (staleNode live), fun m other => (State.node_congr nodes m).trans
    (node_setNode_other s other _), fun c r mem own => ?_, fun p mem has => ?_, fun b mem has => ?_,
    fun p out => (point p).trans (if_neg out), fun b out => (position b).trans (if_neg out), whole.store, whole.supply, outcome.control,
    ?_⟩
  · have own' := dark c r mem own
    rw [channel, channel_lensNodeStale w n c fun c' _ e => ⟨r.noData, e ▸ own', rfl⟩, own']
    rfl
  · obtain ⟨r, own⟩ := Option.isSome_iff_exists.1 has
    rw [point, if_pos mem, own, Option.map_some]
  · obtain ⟨r, own⟩ := Option.isSome_iff_exists.1 has
    rw [position, if_pos mem, own, Option.map_some]
  · obtain ⟨made, pool, filtered⟩ := outcome.pool
    refine ⟨made, pool, fun apart => ?_, fun c r busy under mem own => ?_⟩
    · rcases ended with ⟨nothing, same, -⟩ | ⟨c, -, -, busy, under, named⟩
      · rw [same] at channel after
        refine ⟨fun j out => (channel j).trans (others j out), after.lens.trans lens, fun b hb kind => ?_⟩
        exact List.filter_eq_nil_iff.1 (filtered.trans nothing) b hb (decide_eq_true kind)
      · rw [lens] at busy under
        rw [tables] at named
        obtain ⟨c', under', apart⟩ := apart.resolve_left busy
        cases under.symm.trans under'
        exact absurd named apart
    · have named := channelsOfNode_node mem
      rw [← lens] at busy under
      rw [← tables] at named
      rcases ended with ⟨-, -, free⟩ | ⟨c', outcome, ends, -, under', -⟩
      · exact absurd named (free.resolve_left busy c under)
      · cases under.symm.trans under'
        rw [ends] at channel after
        refine ⟨fun j out => ?_, ?_, filtered.trans (outcome.trans ?_)⟩
        · rw [channel, channel_endTest_other w c j _ _ fun e => out (e ▸ mem), others j out]
        · rw [after.lens, (endTest_stale (by rw [named]; exact stale) .noResponse).2, lens]
        · rw [lensRecord_eq (dark c r mem own), lens, tables, ← named, tables]
          rfl

end Sys2Proof.Machine
end

section
/-! SUPPORT. An accepted frame of a node that is ABSENT or STALE (R30, R39): what becomes of the node's channels and points when they are
told and then the frame's contents are delivered. -/

namespace Sys2Proof.Machine

open Sys2Proof.Safety

/-! ## The event (R30, R39) -/

/-- A frame of a node that is not LIVE: the node becomes LIVE, then the delivery with no gap. -/
theorem exec_firstFrame {s : State} {k : NodeKind} {source seq : Byte} {payload : List Byte} {n : Nat} {c : Contents} {r : NodeRec}
    (up : Up s) (source_ne : source ≠ 0) (admitted : s.admission k source payload = some (n, c)) (node : s.node n = some r)
    (notLive : r.live ≠ .live) : exec (nodeCommand k source seq payload) s = .next ((s.becomeLive n r seq).deliver n 0 c) := by
  refine (exec_nodeCommand_up up k source seq payload).trans (congrArg _ ?_)
  unfold State.nodeFrame
  rw [if_neg source_ne, admitted]
  dsimp only
  rw [node]
  unfold State.acceptFrame
  dsimp only
  split
  · exact absurd ‹r.live = .live› notLive
  · rfl

/-! ## The delivery of a position code (R106) -/

/-- Kept by the delivery of position codes. -/
structure KeptByPositions (s t : State) : Prop extends Kept s t where
  nodes    : t.nodes = s.nodes
  channels : t.channels = s.channels
  points   : t.points = s.points
  lens     : t.lens = s.lens

theorem KeptByPositions.refl (s : State) : KeptByPositions s s := ⟨.refl s, rfl, rfl, rfl, rfl⟩

theorem KeptByPositions.trans {s t u : State} (h : KeptByPositions s t) (k : KeptByPositions t u) : KeptByPositions s u :=
  ⟨h.toKept.trans k.toKept, k.nodes.trans h.nodes, k.channels.trans h.channels, k.points.trans h.points, k.lens.trans h.lens⟩

theorem KeptByOrders.toPositions {s t : State} (h : KeptByOrders s t) : KeptByPositions s t :=
  ⟨h.toKept, h.nodes, h.channels, h.points, h.lens⟩

theorem deliverPosition_keeps (s : State) (b : Nat) (p : Position) : KeptByPositions s (s.deliverPosition b p) := by
  have placed : KeptByPositions s (s.setPosition b p) := ⟨setPosition_kept s b p, rfl, rfl, rfl, rfl⟩
  unfold State.deliverPosition
  split
  · exact .refl s
  · split
    · exact .refl s
    · exact placed.trans ((record_kept _ _).trans (orderSeesPosition_kept _ b p)).toPositions

theorem deliver_positions_kept {s : State} {n gap : Nat} {xs : List Position} : KeptByPositions s (s.deliver n gap (.positions xs)) := by
  rw [deliver_positions]
  exact deliverEach_keeps KeptByPositions.refl KeptByPositions.trans deliverPosition_keeps xs 0 s

/-! ## Contents of any kind, delivered from a state -/

section
variable {s : State} {n gap : Nat} {c : Contents}

theorem deliver_nodes : (s.deliver n gap c).nodes = s.nodes := (Demands.keeps (deliver_byDemands s n gap c)).nodes

theorem channel_deliver_other {j : Nat} (out : j ∉ s.channelsOfNode n) : (s.deliver n gap c).channel j = s.channel j := by
  cases c with
  | light xs => exact channel_deliver_light_other fun k _ named => out (channelAt_mem named)
  | current xs => exact State.channel_congr deliver_current_kept.channels j
  | positions xs => exact State.channel_congr deliver_positions_kept.channels j

theorem point_deliver_other {j : Nat} (out : j ∉ s.pointsOfNode n) : (s.deliver n gap c).point j = s.point j := by
  cases c with
  | light xs => exact State.point_congr deliver_light_kept.points j
  | current xs => exact point_deliver_current_other fun k _ named => out (pointAt_mem named)
  | positions xs => exact State.point_congr deliver_positions_kept.points j

theorem processAll_keeps (e : ChannelEntry) (xs : List Sample) : ∀ r : ChannelRec,
    (r.processAll e xs).cond = r.cond ∧ (r.processAll e xs).gain = r.gain ∧ (r.processAll e xs).standing = r.standing := by
  induction xs with
  | nil => exact fun r => ⟨rfl, rfl, rfl⟩
  | cons x xs ih =>
    intro r
    obtain ⟨-, -, -, gain, -, cond, standing, -⟩ := process_fields e r x
    obtain ⟨cond', gain', standing'⟩ := ih (r.process e x).1
    exact ⟨cond'.trans cond, gain'.trans gain, standing'.trans standing⟩

/-- Whatever a frame carries, a channel that has data keeps its condition, its gain and its standing. -/
theorem deliver_keeps_standing {i : Nat} {x : ChannelRec} (own : s.channel i = some x) (cond : x.cond = .normal ∨ x.cond = .dirty) :
    ∃ y, (s.deliver n gap c).channel i = some y ∧ y.cond = x.cond ∧ y.gain = x.gain ∧ y.standing = x.standing := by
  cases c with
  | light xs =>
    by_cases named : ∃ k, k < xs.length ∧ s.channelAt n k = some i
    · obtain ⟨k, high, at_k⟩ := named
      exact ⟨_, (channel_deliver_light_own (List.getElem?_eq_getElem high) at_k own).1 cond, processAll_keeps _ _ { x with raw := _ }⟩
    · refine ⟨x, (channel_deliver_light_other fun k high at_k => named ⟨k, high, at_k⟩).trans own, rfl, rfl, rfl⟩
  | current xs => exact ⟨x, (State.channel_congr deliver_current_kept.channels i).trans own, rfl, rfl, rfl⟩
  | positions xs => exact ⟨x, (State.channel_congr deliver_positions_kept.channels i).trans own, rfl, rfl, rfl⟩

/-- Whatever a frame carries, a point keeps its condition. -/
theorem deliver_keeps_cond (i : Nat) : ((s.deliver n gap c).point i).map PointRec.cond = (s.point i).map PointRec.cond := by
  cases c with
  | light xs => rw [State.point_congr deliver_light_kept.points]
  | current xs =>
    by_cases named : ∃ k, k < xs.length ∧ s.pointAt n k = some i
    · obtain ⟨k, high, at_k⟩ := named
      rw [point_deliver_current_own (List.getElem?_eq_getElem high) at_k, Option.map_map]
      rfl
    · rw [point_deliver_current_other fun k high at_k => named ⟨k, high, at_k⟩]
  | positions xs => rw [State.point_congr deliver_positions_kept.points]

theorem deliverEach_none {α : Type} {f : State → Nat → α → State} (xs : List α) : ∀ (k : Nat) (s : State),
    deliverEach (fun _ => none) f xs k s = s := by
  induction xs with
  | nil => exact fun _ _ => rfl
  | cons x xs ih => exact fun k s => (deliverEach_cons _ f x xs k s).trans (ih (k + 1) s)

/-- A frame of a node that no entry names delivers nothing (R39). -/
theorem deliver_unnamed (channels : s.channelsOfNode n = []) (points : s.pointsOfNode n = []) (breakers : s.breakersOfNode n = []) :
    s.deliver n gap c = s := by
  cases c with
  | light xs =>
    rw [deliver_light, show s.channelAt n = fun _ => none from funext fun k => by unfold State.channelAt; rw [channels]; rfl]
    exact deliverEach_none xs 0 s
  | current xs =>
    rw [deliver_current, show s.pointAt n = fun _ => none from funext fun k => by unfold State.pointAt; rw [points]; rfl]
    exact deliverEach_none xs 0 s
  | positions xs =>
    rw [deliver_positions, show s.breakerAt n = fun _ => none from funext fun k => by unfold State.breakerAt; rw [breakers]; rfl]
    exact deliverEach_none xs 0 s

end

/-! ## Eligibility before a sample has no part in it (R59)

Flicker detection carries eligibility along and does not read it. -/

section
variable (e : ChannelEntry) (r : ChannelRec) (b : Bool)

theorem countCrossing_eligible : countCrossing e { r with eligible := b } =
    ({ (countCrossing e r).1 with eligible := b }, (countCrossing e r).2) := by
  unfold countCrossing
  dsimp only
  split
  · rfl
  · split <;> rfl

theorem closeWindow_eligible (w : FlickerWindow) : closeWindow e w { r with eligible := b } =
    ({ (closeWindow e w r).1 with eligible := b }, (closeWindow e w r).2) := by
  unfold closeWindow
  split <;> rfl

theorem advanceWindow_eligible : advanceWindow e { r with eligible := b } =
    ({ (advanceWindow e r).1 with eligible := b }, (advanceWindow e r).2) := by
  unfold advanceWindow
  dsimp only
  split
  · rfl
  · split
    · exact closeWindow_eligible e r b _
    · rfl

theorem flickerStep_eligible (crossing : Bool) : flickerStep e { r with eligible := b } crossing =
    ({ (flickerStep e r crossing).1 with eligible := b }, (flickerStep e r crossing).2) := by
  have counted : (if crossing then countCrossing e { r with eligible := b } else ({ r with eligible := b }, .nothing)) =
      ({ (if crossing then countCrossing e r else (r, .nothing)).1 with eligible := b },
        (if crossing then countCrossing e r else (r, .nothing)).2) := by
    split
    · exact countCrossing_eligible e r b
    · rfl
  unfold flickerStep
  dsimp only
  rw [counted]
  split
  · rfl
  · split
    · rfl
    · rw [advanceWindow_eligible]

/-- The record of a channel whose compensated level, integrator and light state have taken a sample, before flicker detection. -/
def ChannelRec.stepped (x : Sample) : ChannelRec := { r with
  comp := (match x with
    | .received _ => x.level r
    | _ => r.comp)
  integ := integAfter e r.integ (x.level r)
  light := lightAfter (integAfter e r.integ (x.level r)) e.qualify.toNat r.light }

theorem process_eligible (x : Sample) :
    (ChannelRec.process e { r with eligible := b } x).1 = (ChannelRec.process e r x).1 := by
  have ends : ∀ (stepped : ChannelRec) (crossing : Bool) (pred : Option Bool),
      ({ (flickerStep e { stepped with eligible := b } crossing).1 with pred := pred } : ChannelRec).withEligibility e =
        ({ (flickerStep e stepped crossing).1 with pred := pred } : ChannelRec).withEligibility e := fun stepped crossing pred => by
    rw [flickerStep_eligible]
    rfl
  have process := ends (ChannelRec.stepped e r x) (isCrossing e r x) (some (belowThreshold e (x.level r)))
  cases x <;> exact process

end

/-! ## What becomes of a channel and of a point (R45, R61, R72, R77) -/

theorem heard_data {x : ChannelRec} (cond : x.cond = .noData) (e : ChannelEntry) :
    (x.heard e).cond = .normal ∨ (x.heard e).cond = .dirty := by
  rw [heard_noData cond]
  exact x.standing.cond_data

/-- A channel that leaves NO_DATA processes its first sample in the condition of its standing (R45, R61). -/
theorem processAll_heard {x : ChannelRec} (cond : x.cond = .noData) (e : ChannelEntry) (level : Nat) :
    ChannelRec.processAll e { x.heard e with raw := some level } ((x.heard e).given level 0) =
      (ChannelRec.process e { x with raw := some level, cond := x.standing.cond } (.received level)).1 := by
  have alone : (x.heard e).given level 0 = [.received level] := by
    unfold ChannelRec.given heldCount
    simp
  rw [alone, heard_noData cond]
  exact process_eligible e { x with raw := some level, cond := x.standing.cond } _ (.received level)

theorem setNode_setNode (s : State) (n : Nat) (r q : NodeRec) : (s.setNode n r).setNode n q = s.setNode n q := by
  unfold State.setNode
  rw [Vector.setIfInBounds_setIfInBounds]

section
variable {s : State} {n : Nat} {r : NodeRec} {seq : Byte} {i : Nat}

theorem channel_heard {x : ChannelRec} (mem : i ∈ s.channelsOfNode n) (own : s.channel i = some x) :
    (s.becomeLive n r seq).channel i = some (x.heard (s.tables.channel i)) := by
  rw [channel_becomeLive, if_pos mem, own, Option.map_some]

/-- The record of a node that has become LIVE is its last one; the NODE_LIVE record stands. -/
theorem livening_setNode (q : NodeRec) : (s.livening n r seq).setNode n q =
    (s.setNode n q).record (nodeRecord .nodeLive (if r.live = .stale then .alarm else .notice) n none) :=
  congrArg (fun t : State => t.record (nodeRecord .nodeLive (if r.live = .stale then .alarm else .notice) n none))
    (setNode_setNode s n _ q)

theorem point_heard {x : PointRec} (mem : i ∈ s.pointsOfNode n) (own : s.point i = some x) :
    (s.becomeLive n r seq).point i = some x.heard := by
  rw [point_becomeLive, if_pos mem, own, Option.map_some]

end

/-- Settles O15: with no entry for the node its record alone; otherwise the reports by `channel_becomeLive` and `point_becomeLive`, then
the delivery. -/
theorem acceptedFramesKeepNodeLive : Obligations.acceptedFramesKeepNodeLive := by
  unfold Obligations.acceptedFramesKeepNodeLive
  intro k source seq payload s n c r up source_ne admitted node command stamped
  refine ⟨fun channels points breakers closed => ?_, fun notLive => ?_⟩
  · intro heard
    refine ⟨fun notLive => ?_, fun last live lastSeq => ?_⟩
    · refine (exec_firstFrame up source_ne admitted node notLive).trans (congrArg _ ?_)
      have known := (becomeLive_kept s n r seq).active
      rw [deliver_unnamed ((channelsOfNode_congr known n).trans channels) ((pointsOfNode_congr known n).trans points)
        ((breakersOfNode_congr known n).trans breakers), becomeLive_untold s n r seq channels points, if_neg closed]
      exact livening_setNode stamped
    · have node' : s.node n = some ⟨.live, some last, r.timer⟩ := by rw [node, ← live, ← lastSeq]
      have delivered : ∀ seq_ne : seq ≠ last, exec command s = .next (s.stayLive n seq (seq - last).toNat) := fun seq_ne => by
        obtain ⟨-, -, -, -, known⟩ := stayLive_same s n seq (seq - last).toNat
        rw [exec_frameOfLive up source_ne admitted node' seq_ne, deliver_unnamed ((channelsOfNode_congr known n).trans channels)
          ((pointsOfNode_congr known n).trans points) ((breakersOfNode_congr known n).trans breakers)]
      have differ : 1 ≤ (seq - last).toNat → seq ≠ last := fun h e => by
        rw [e, BitVec.sub_self] at h
        exact absurd h (by decide)
      refine ⟨fun low high => ?_, fun high => ?_⟩
      · rw [delivered (differ low), stayLive_eq, if_pos high]
      · rw [delivered (differ (by omega)), stayLive_eq, if_neg (by omega)]
  · set u := s.becomeLive n r seq with hu
    have told : u.tables = s.tables := (becomeLive_kept s n r seq).active
    have channelsOf := channelsOfNode_congr told n
    have pointsOf := pointsOfNode_congr told n
    obtain ⟨-, later, others, pool⟩ := (becomeLive_makes s n r seq).trans (deliver_makes u n 0 c)
    have nodes : ∀ m, (u.deliver n 0 c).node m = if m = n then some stamped else s.node m := fun m =>
      (State.node_congr deliver_nodes m).trans (node_becomeLive r seq node m)
    refine ⟨u.deliver n 0 c, exec_firstFrame up source_ne admitted node notLive, (nodes n).trans (if_pos rfl),
      fun m other => (nodes m).trans (if_neg other), ⟨later, others, pool⟩, fun i x mem own cond => ?_, fun i mem noData => ?_,
      fun i out => ?_, fun i out => ?_, fun samples k level flag i x contents at_k named own cond => ?_,
      fun samples k m1 m2 m3 i contents at_k named noData => ?_⟩
    · obtain ⟨y, own', cond', gain, standing⟩ := deliver_keeps_standing (n := n) (gap := 0) (c := c)
        (channel_heard (r := r) (seq := seq) mem own) (heard_data cond _)
      rw [heard_noData cond] at cond' gain standing
      exact ⟨y, own', cond', gain, standing⟩
    · obtain ⟨x, own, cond⟩ := Option.map_eq_some_iff.1 noData
      rw [deliver_keeps_cond, point_heard mem own, show x.heard = ⟨0, .normal⟩ from if_pos cond]
      rfl
    · rw [channel_deliver_other (by rw [channelsOf]; exact out), channel_becomeLive, if_neg out]
    · rw [point_deliver_other (by rw [pointsOf]; exact out), point_becomeLive, if_neg out]
    · subst contents
      have own' : u.channel i = _ := channel_heard (channelAt_mem named) own
      have delivered := (channel_deliver_light_own (gap := 0) at_k ((channelAt_congr told n k).trans named) own').1 (heard_data cond _)
      rw [delivered, told, processAll_heard cond]
    · intro e reaches
      subst contents
      obtain ⟨x, own, cond⟩ := Option.map_eq_some_iff.1 noData
      have own' : u.point i = some ⟨0, .normal⟩ :=
        (point_heard (pointAt_mem named) own).trans (congrArg some (if_pos cond))
      rw [point_deliver_current_own at_k ((pointAt_congr told n k).trans named), own', told, Option.map_some]
      refine ⟨fun above => ?_, fun under1 under2 under3 => ?_⟩
      · rw [stretchAfter_over (e := e) (x := ⟨m1, m2, m3⟩) above]
      · have under : ¬e.overPickup ⟨m1, m2, m3⟩ := fun h => h.elim under1 fun h => h.elim under2 under3
        rw [stretchAfter_under (e := e) under]
        rfl

end Sys2Proof.Machine
end

section
/-! SUPPORT. A POSITION frame (R38, R39, R106): the delivery of its codes, and what a code does to the breaker's record, to the order on
it and to its trip line (R106, R113, R116 to R118, R122, R124). -/

namespace Sys2Proof.Machine

open Sys2Proof.Safety

/-! ## The delivery of a frame's codes (R38, R39) -/

section
variable {s : State} {n gap : Nat} {xs : List Position}

theorem position_deliverPosition_other (u : State) (b : Nat) (p : Position) (j : Nat) (h : j ≠ b) :
    (u.deliverPosition b p).position j = u.position j :=
  (position_deliverPosition u b j p).trans (if_neg h)

theorem position_deliver_positions_other {j : Nat} (unnamed : ∀ k, k < xs.length → s.breakerAt n k ≠ some j) :
    (s.deliver n gap (.positions xs)).position j = s.position j := by
  rw [deliver_positions]
  exact deliverEach_other (read := State.position) position_deliverPosition_other xs j 0 s fun k _ high => unnamed k (by omega)

theorem position_deliver_positions_own {k b : Nat} {p : Position} (at_k : xs[k]? = some p) (named : s.breakerAt n k = some b) :
    (s.deliver n gap (.positions xs)).position b = (s.position b).map fun _ => p := by
  obtain ⟨u, -, same, last⟩ := deliverEach_own (read := State.position) (breakerAt_inj s n) position_deliverPosition_other
    KeptByPositions.refl KeptByPositions.trans deliverPosition_keeps xs 0 k s at_k (by rwa [Nat.zero_add])
  rw [deliver_positions, last, position_deliverPosition, if_pos rfl, same]

end

/-- What the delivery of a frame's codes leaves, from a state that reads as `s` does (R39, R106). -/
theorem positions_delivered {s heard : State} (n gap : Nat) (xs : List Position) (tables : heard.tables = s.tables)
    (channels : heard.channels = s.channels) (points : heard.points = s.points)
    (positions : heard.trip.positions = s.trip.positions) (lens : heard.lens = s.lens) :
    let t := heard.deliver n gap (.positions xs)
    t = deliverEach (s.breakerAt n) (fun u b p => u.deliverPosition b p) xs 0 heard ∧
      (∀ k p b, xs[k]? = some p → s.breakerAt n k = some b → (s.position b).isSome = true → t.position b = some p) ∧
      (∀ j, (∀ k, k < xs.length → s.breakerAt n k ≠ some j) → t.position j = s.position j) ∧
      t.nodes = heard.nodes ∧ t.channels = s.channels ∧ t.points = s.points ∧ t.lens = s.lens := by
  intro t
  have named := breakerAt_congr tables n
  have kept : KeptByPositions heard t := deliver_positions_kept
  refine ⟨deliver_positions_from tables n gap xs, fun k p b at_k at_b has => ?_, fun j unnamed => ?_, kept.nodes,
    kept.channels.trans channels, kept.points.trans points, kept.lens.trans lens⟩
  · obtain ⟨old, own⟩ := Option.isSome_iff_exists.1 has
    rw [position_deliver_positions_own at_k ((named k).trans at_b), State.position_congr positions, own, Option.map_some]
  · rw [position_deliver_positions_other fun k high => by rw [named]; exact unnamed k high, State.position_congr positions]

/-! ## What a code does (R106, R116 to R118) -/

/-- The position that a code reports has replaced the one held, with its POSITION_CHANGE record (R106). -/
def State.moved (s : State) (b : Nat) (old new : Position) : State := (s.setPosition b new).record
  { kind := .positionChange, category := .notice, breaker := some b, value := some (value2 old.code.toNat new.code.toNat) }

theorem deliverPosition_same {s : State} {b : Nat} {p : Position} (own : s.position b = some p) : s.deliverPosition b p = s := by
  unfold State.deliverPosition
  rw [own]
  exact if_pos rfl

theorem deliverPosition_moved {s : State} {b : Nat} {old new : Position} (own : s.position b = some old) (differ : old ≠ new) :
    s.deliverPosition b new = (s.moved b old new).orderSeesPosition b new := by
  unfold State.deliverPosition
  rw [own]
  exact if_neg differ

theorem moved_position {s : State} {b : Nat} {old : Position} (own : s.position b = some old) (new : Position) :
    (s.moved b old new).position b = some new :=
  (State.position_setPosition s b b new).trans (if_pos ⟨rfl, position_lt own⟩)

theorem unopened_iff (o : Order) : o.unopened = true ↔ o.state ≠ .opened := by
  unfold Order.unopened
  cases o.state <;> simp

section
variable {s : State} {b : Nat} {o : Order} {p : Position}

theorem orderSeesPosition_none (h : s.order b = none) : s.orderSeesPosition b p = s := by
  unfold State.orderSeesPosition
  rw [h]

theorem orderSeesPosition_opens (h : s.order b = some o) (isOpen : p = .atOpen) (unopened : o.state ≠ .opened) :
    s.orderSeesPosition b p = s.openOrder o := by
  unfold State.orderSeesPosition
  rw [h]
  exact (if_pos isOpen).trans (if_pos ((unopened_iff o).2 unopened))

theorem orderSeesPosition_reissues (h : s.order b = some o) (notOpen : p ≠ .atOpen) (known : p ≠ .unknown)
    (opened : o.state = .opened) : s.orderSeesPosition b p = s.reissueOrder o p := by
  unfold State.orderSeesPosition
  rw [h]
  exact (if_neg notOpen).trans (if_pos ⟨known, opened⟩)

/-- A change that neither opens an unopened order nor leaves OPEN under an OPENED one is none of the order's (R116 to R118). -/
theorem orderSeesPosition_idle (h : s.order b = some o) (idle : p = .atOpen ↔ o.state = .opened) : s.orderSeesPosition b p = s := by
  unfold State.orderSeesPosition
  rw [h]
  dsimp only
  split
  · rename_i isOpen
    exact if_neg fun unopened => (unopened_iff o).1 unopened (idle.1 isOpen)
  · rename_i notOpen
    exact if_neg fun ⟨_, opened⟩ => notOpen (idle.2 opened)

end

/-! ## An order that opens (R116, R124) -/

theorem reconsiderLine_same (s : State) (b : Nat) : (s.reconsiderLine b).trip.orders = s.trip.orders ∧
    (s.reconsiderLine b).loop = s.loop ∧ (s.reconsiderLine b).pool = s.pool ∧
    (s.reconsiderLine b).trip.positions = s.trip.positions := by
  unfold State.reconsiderLine
  split
  · split <;> exact ⟨rfl, rfl, rfl, rfl⟩
  · exact ⟨rfl, rfl, rfl, rfl⟩

/-- The line of an order that stops being held goes inactive when nothing else holds it and its pulse is over (R124). -/
theorem line_reconsiderLine (s : State) (b : Nat) {l : Nat} (known : l < 4) : (s.reconsiderLine b).line l =
    if s.lineOf b = some l ∧ s.lineHeld l = false ∧ (s.line l).pulse.isRunning = false then ⟨false, .stopped⟩ else s.line l := by
  unfold State.reconsiderLine
  cases h : s.lineOf b with
  | none => exact (if_neg fun k => nomatch k.1).symm
  | some m =>
    dsimp only
    by_cases e : m = l
    · subst e
      split
      · rename_i stays
        exact (if_neg fun ⟨_, free, ended⟩ => by simp [free, ended] at stays).symm
      · rename_i goes
        obtain ⟨free, ended⟩ : s.lineHeld m = false ∧ (s.line m).pulse.isRunning = false := by simpa using goes
        have stopped : (s.line m).pulse = .stopped := by
          cases pulse : (s.line m).pulse with
          | stopped => rfl
          | running left => rw [pulse] at ended; cases ended
        rw [if_pos ⟨rfl, free, ended⟩, State.line_setLine, if_pos ⟨rfl, known⟩, stopped]
    · refine Eq.trans ?_ (if_neg fun k => e (Option.some.inj k.1)).symm
      split
      · rfl
      · rw [State.line_setLine, if_neg fun k => e k.1]

/-- A line is held by the other orders alone once the order on a breaker is OPENED. -/
theorem lineHeld_opened (s : State) (b l : Nat) :
    (s.updateOrder b fun o => { o with state := .opened, failure := .stopped, resend := .stopped }).lineHeld l = false ↔
      ∀ o ∈ s.trip.orders, o.breaker ≠ b → o.state = .opened ∨ s.lineOf o.breaker ≠ some l := by
  rw [← Bool.not_eq_true, lineHeld_iff]
  refine ⟨fun free o mem other => ?_, fun others => ?_⟩
  · by_contra held
    rw [not_or, not_not] at held
    exact free ⟨o, List.mem_map.2 ⟨o, mem, if_neg other⟩, held⟩
  · rintro ⟨_, mem, unopened, line⟩
    obtain ⟨o, listed, rfl⟩ := List.mem_map.1 mem
    by_cases own : o.breaker = b
    · rw [if_pos own] at unopened
      exact unopened rfl
    · rw [if_neg own] at unopened line
      exact (others o listed own).elim unopened fun h => h line

/-- An order that opens (R116): its state and timers, its line, and its record. -/
theorem openOrder_does {s : State} {b : Nat} {o : Order} (h : s.order b = some o) :
    let t := s.openOrder o
    t.order b = some { o with state := .opened, failure := .stopped, resend := .stopped } ∧ t.loop = s.loop ∧
      t.trip.positions = s.trip.positions ∧
      (∀ l, l < 4 →
        let free : Prop := s.lineOf b = some l ∧ (s.line l).pulse.isRunning = false ∧
          ∀ o ∈ s.trip.orders, o.breaker ≠ b → o.state = .opened ∨ s.lineOf o.breaker ≠ some l
        (free → t.line l = ⟨false, .stopped⟩) ∧ (¬free → t.line l = s.line l)) ∧
      t.pool = s.pool.take s.deviceTime (orderRecord .orderOpened o (value2 o.state.code o.depth)) := by
  obtain rfl := order_breaker h
  intro t
  set v := (s.updateOrder o.breaker fun o => { o with state := .opened, failure := .stopped, resend := .stopped }).record
    (orderRecord .orderOpened o (value2 o.state.code o.depth)) with hv
  obtain ⟨orders, loop, pool, positions⟩ := reconsiderLine_same v o.breaker
  refine ⟨?_, loop, positions, fun l known => ?_, pool⟩
  · refine (State.order_congr orders _).trans ((order_updateOrder s o.breaker o.breaker
      (fun o => { o with state := .opened, failure := .stopped, resend := .stopped }) fun _ => rfl).trans ?_)
    rw [if_pos rfl, h, Option.map_some]
  · intro free
    have line := line_reconsiderLine v o.breaker known
    have held : v.lineHeld l = false ↔ _ := lineHeld_opened s o.breaker l
    have free_iff : (v.lineOf o.breaker = some l ∧ v.lineHeld l = false ∧ (v.line l).pulse.isRunning = false) ↔ free :=
      and_congr_right fun _ => (and_congr_left fun _ => held).trans and_comm
    exact ⟨fun h => line.trans (if_pos (free_iff.2 h)), fun h => line.trans (if_neg fun k => h (free_iff.1 k))⟩

/-! ## An order that is reissued (R113, R114, R117, R122, R124) -/

/-- The order on a breaker is ISSUED again with both timers running, and its ORDER_REISSUED record is made (R117). -/
def State.reissued (s : State) (b : Nat) (o : Order) (p : Position) : State :=
  (s.updateOrder b fun o => { o with
    state := .issued, failure := .running (s.failureTime o.breaker), resend := .running 20 }).record
    (orderRecord .orderReissued o (value2 p.code.toNat o.depth))

section
variable {s : State} {b : Nat} {o : Order} {p : Position}

theorem reissueOrder_eq (h : s.order b = some o) :
    s.reissueOrder o p = (((s.reissued b o p).attemptSend b).driveLine b).failIfCut State.ask b := by
  obtain rfl := order_breaker h
  have both := updateOrder_record_comm s o.breaker (fun x => { x with state := .issued, failure := .running (s.failureTime x.breaker) })
    (fun x => { x with resend := .running 20 }) (orderRecord .orderReissued o (value2 p.code.toNat o.depth)) fun _ => rfl
  exact congrArg (fun t : State => ((t.attemptSend o.breaker).driveLine o.breaker).failIfCut State.ask o.breaker) both

theorem order_reissued (h : s.order b = some o) : (s.reissued b o p).order b = some { o with
    state := .issued, failure := .running (s.failureTime b), resend := .running 20 } := by
  refine (order_updateOrder s b b (fun o => { o with
    state := .issued, failure := .running (s.failureTime o.breaker), resend := .running 20 }) fun _ => rfl).trans ?_
  rw [if_pos rfl, h, Option.map_some, order_breaker h]

theorem driveLine_pool (s : State) (b : Nat) : (s.driveLine b).pool = s.pool := by
  unfold State.driveLine
  split
  · split <;> rfl
  · rfl

theorem lineDriven_congr {u t : State} (active : u.agent.active = s.agent.active) (lines : u.trip.lines = s.trip.lines)
    (h : LineDriven u t b) : LineDriven s t b := by
  have lineOf : u.lineOf b = s.lineOf b := congrArg (fun t : Tables => (t.breaker b).lineOf) active
  intro l known
  rw [← lineOf, ← State.line_congr lines]
  exact h l known

/-- The reissue of an order on a breaker that a frame or a line can reach (R114, R117, R124). -/
theorem reissueOrder_does (h : s.order b = some o) (reached : s.cutWithoutLine b = false) :
    let t := s.reissueOrder o p
    ∃ copy, t.order b = some { o with
        state := .issued, failure := .running (s.failureTime b), resend := .running 20, waiting := copy } ∧
      SendAttempted s b o.depth o.ageMs o.waiting t.loop copy ∧ LineDriven s t b ∧
      t.pool = s.pool.take s.deviceTime (orderRecord .orderReissued o (value2 p.code.toNat o.depth)) := by
  intro t
  obtain ⟨copy, order, attempted, -, pool, lines⟩ := attemptSend_attempted _ b _ (order_reissued (p := p) h) rfl
  set v := (s.reissued b o p).attemptSend b with hv
  have sent : KeptByOrders s v :=
    ((updateOrder_kept s b _).trans (record_kept _ _)).trans (attemptSend_kept (s.reissued b o p) b)
  have kept : KeptByOrders s (v.driveLine b) := sent.trans (driveLine_kept v b)
  have uncut : (v.driveLine b).cutWithoutLine b = false :=
    (cutWithoutLine_congr (cutSet_of_rest kept.loopRest) kept.active b).trans reached
  have t_eq : t = v.driveLine b := by
    refine (reissueOrder_eq h).trans ?_
    unfold State.failIfCut
    exact if_neg (by rw [uncut]; exact Bool.false_ne_true)
  rw [t_eq]
  refine ⟨copy, (State.order_congr (driveLine_orders v b) b).trans order, ?_,
    lineDriven_congr sent.active lines (driveLine_driven v b), (driveLine_pool v b).trans pool⟩
  rw [driveLine_loop]
  exact attempted

/-- The reissue of an order on a breaker that is cut and has no line: it fails at once (R117, R122). -/
theorem reissueOrder_cut (h : s.order b = some o) (cut : s.cutWithoutLine b = true) :
    s.reissueOrder o p = (s.reissued b o p).failWith State.ask b .cut := by
  obtain ⟨isCut, noLine⟩ : s.isCut b = true ∧ s.lineOf b = none := by simpa [State.cutWithoutLine] using cut
  have unsent : (s.reissued b o p).attemptSend b = s.reissued b o p :=
    attemptSend_not (order_reissued h) (.inr (by rw [show (s.reissued b o p).isCut b = true from isCut]; simp))
  have undriven : (s.reissued b o p).driveLine b = s.reissued b o p := by
    unfold State.driveLine
    rw [show (s.reissued b o p).lineOf b = none from noLine]
  rw [reissueOrder_eq h, unsent, undriven]
  unfold State.failIfCut
  exact if_pos cut

/-- An order that is reissued and fails at once, its two changes as one. -/
theorem markFailed_reissued (h : s.order b = some o) : (s.reissued b o p).markFailed { o with
      state := .issued, failure := .running (s.failureTime b), resend := .running 20 } .cut =
    ((s.updateOrder b fun o => { o with state := .failed, failure := .stopped, resend := .running 20 }).record
      (orderRecord .orderReissued o (value2 p.code.toNat o.depth))).record (orderRecord .orderFailed o (value2 2 o.depth)) := by
  obtain rfl := order_breaker h
  exact congrArg (fun t : State => t.record (orderRecord .orderFailed o (value2 2 o.depth)))
    (updateOrder_record_comm s o.breaker (fun x => { x with
      state := .issued, failure := .running (s.failureTime x.breaker), resend := .running 20 })
      (fun x => { x with state := .failed, failure := .stopped })
      (orderRecord .orderReissued o (value2 p.code.toNat o.depth)) fun _ => rfl)

end

/-- Settles O22: the delivery by `positions_delivered`, and a code by what it is to the order. -/
theorem positionChanges : Obligations.positionChanges := by
  unfold Obligations.positionChanges
  refine ⟨fun s source seq payload n positions r up source_ne admitted node => ?_, breakerAt_names, fun s b old new own known => ?_⟩
  · intro stamped delivered
    have delivers : ∀ (gap : Nat) (heard : State),
        exec (.position source seq payload) s = .next (heard.deliver n gap (.positions positions)) →
        heard.tables = s.tables → heard.channels = s.channels → heard.points = s.points →
        heard.trip.positions = s.trip.positions → heard.lens = s.lens → ∃ t, delivered heard t :=
      fun gap heard command tables channels points positions lens =>
        ⟨_, command, positions_delivered n gap _ tables channels points positions lens⟩
    refine ⟨fun last live lastSeq differ => ?_, fun notLive channels points => ?_⟩
    · intro d heard
      have node' : s.node n = some ⟨.live, some last, r.timer⟩ := by rw [node, ← live, ← lastSeq]
      have command := exec_frameOfLive up source_ne admitted node' differ
      obtain ⟨channels, points, trip, lens, tables⟩ := stayLive_same s n seq d
      rw [show s.stayLive n seq d = heard from stayLive_eq s n seq d] at command channels points trip lens tables
      exact delivers _ heard command tables channels points (congrArg _ trip) lens
    · intro live told
      have command := exec_firstFrame (seq := seq) up source_ne admitted node notLive
      rw [becomeLive_untold s n r seq channels points] at command
      have kept : Recut live told := by
        change Recut live (if _ then _ else _)
        split
        · exact (drawn_recut live).trans (recomputeCut_recut _)
        · exact .refl live
      exact delivers 0 (told.setNode n stamped) command kept.active kept.channels kept.points kept.positions kept.lens
  · intro t code changed
    have code_eq : ∀ p : Position, p.code.toNat = code p := fun p => by cases p <;> rfl
    have moved_eq : s.moved b old new = changed := by
      unfold State.moved
      rw [code_eq, code_eq]
    have does : old ≠ new → t = changed.orderSeesPosition b new := fun differ => moved_eq ▸ deliverPosition_moved own differ
    refine ⟨fun same => ?_, fun differ none => (does differ).trans (orderSeesPosition_none none), fun o differ order => ?_⟩
    · subst same
      exact deliverPosition_same own
    obtain rfl := order_breaker order
    have order' : changed.order o.breaker = some o := order
    refine ⟨fun notOpen unopened => ?_, fun isOpen opened => ?_, fun isOpen unopened => ?_, fun notOpen opened reached => ?_,
      fun notOpen opened cut => ?_⟩
    · exact (does differ).trans (orderSeesPosition_idle order' ⟨fun h => absurd h notOpen, fun h => absurd h unopened⟩)
    · exact (does differ).trans (orderSeesPosition_idle order' ⟨fun _ => opened, fun _ => isOpen⟩)
    · have t_eq := (does differ).trans (orderSeesPosition_opens order' isOpen unopened)
      obtain ⟨becomes, loop, positions, lines, pool⟩ := openOrder_does order'
      rw [← t_eq] at becomes loop positions lines pool
      refine ⟨becomes, loop, ?_, lines, pool⟩
      rw [State.position_congr positions, ← moved_eq]
      exact moved_position own new
    · have t_eq := (does differ).trans (orderSeesPosition_reissues order' notOpen known opened)
      obtain ⟨copy, becomes, attempted, driven, pool⟩ := reissueOrder_does (p := new) order' reached
      rw [← t_eq] at becomes attempted driven pool
      rw [code_eq] at pool
      exact ⟨copy, becomes, attempted, driven, pool⟩
    · intro body backups failed
      have t_eq := (does differ).trans (orderSeesPosition_reissues order' notOpen known opened)
      have fails := failWith_eq (order_reissued (p := new) order') .cut
      rw [markFailed_reissued order', code_eq] at fails
      exact t_eq.trans ((reissueOrder_cut order' cut).trans fails)

end Sys2Proof.Machine
end

section
/-! SUPPORT. What an event does to the tables, the records of nodes, channels, points and breakers, and the Section Evaluator, said once: it
is a run of small changes of a few kinds, but for an activation and a reset. An invariant of these parts is proved kept by checking
the kinds. -/

namespace Sys2Proof.Machine

open Sys2Proof.Safety
open Relation (ReflTransGen)

/-! ## Kinds of change -/

/-- A change beside the tables in force and stored, the records of the blocks, and the Section Evaluator. -/
structure Apart (s t : State) : Prop where
  active : t.agent.active = s.agent.active
  mode : t.agent.mode = s.agent.mode
  image : t.store.image = s.store.image
  nodes : t.nodes = s.nodes
  channels : t.channels = s.channels
  points : t.points = s.points
  positions : t.trip.positions = s.trip.positions
  sections : t.sections = s.sections

/-- What the Light Qualifier makes of the record of a channel with entry `e` (R45 to R64, R141). -/
inductive Reworked (e : ChannelEntry) (r : ChannelRec) : ChannelRec → Prop
  | raw (level : Nat) : Reworked e r { r with raw := some level }
  | sample (x : Sample) : Reworked e r (r.process e x).1
  | noData : Reworked e r r.noData
  | live : Reworked e r (({ r with cond := r.standing.cond }).withEligibility e)
  | testing : Reworked e r { r with cond := .testing }
  | returned : Reworked e r { r with cond := r.standing.cond }
  | handedOver (peak : Nat) (standing : Standing) :
      Reworked e r { r with gain := (gainResult e.reference.toNat peak r.gain).2.1, standing := standing }

/-- The requests on a section and the expiry of its timer (R94, R97 to R100). -/
inductive SectionEvent (s : State) : State → Prop
  | persistence (i : Nat) : SectionEvent s (s.persistenceExpiry i)
  | blocked (i : Nat) : SectionEvent s (s.setBlockOn i).1
  | unblocked (i : Nat) : SectionEvent s (s.setBlockOff i).1
  | maintained (i : Nat) (on : Bool) : SectionEvent s (s.setMaintenance i on).1
  | released (i : Nat) : SectionEvent s (s.release i).1

/-- A change that leaves the records of nodes, points and breakers alone. -/
inductive Calm : State → State → Prop
  | apart {s t : State} (h : Apart s t) : Calm s t
  | channel {s : State} {c : Nat} {old new : ChannelRec} (own : s.channel c = some old)
      (how : Reworked (s.tables.channel c) old new) : Calm s (s.changeChannel c old new)
  | event {s t : State} (h : SectionEvent s t) : Calm s t

/-- The changes that every event is made of, but for an activation, a reset and the passing of time. -/
inductive Turn : State → State → Prop
  | calm {s t : State} (h : Calm s t) : Turn s t
  | node {s : State} {n : Nat} {r : NodeRec} (new : NodeRec) (own : s.node n = some r) : Turn s (s.setNode n new)
  | point {s : State} {p : Nat} {old : PointRec} (new : PointRec) (own : s.point p = some old) :
      Turn s (s.changePoint p old new)
  | position {s : State} {b : Nat} {old : Position} (new : Position) (own : s.position b = some old) :
      Turn s (s.setPosition b new)

/-- A run of changes that leave the records of nodes, points and breakers alone. -/
abbrev Calms : State → State → Prop := ReflTransGen Calm
/-- A run of changes. -/
abbrev Turns : State → State → Prop := ReflTransGen Turn

theorem Apart.refl (s : State) : Apart s s := ⟨rfl, rfl, rfl, rfl, rfl, rfl, rfl, rfl⟩

theorem Apart.trans {s t u : State} (h : Apart s t) (k : Apart t u) : Apart s u :=
  ⟨k.active.trans h.active, k.mode.trans h.mode, k.image.trans h.image, k.nodes.trans h.nodes, k.channels.trans h.channels,
    k.points.trans h.points, k.positions.trans h.positions, k.sections.trans h.sections⟩

theorem Apart.calms {s t : State} (h : Apart s t) : Calms s t := .single (.apart h)
theorem SectionEvent.calms {s t : State} (h : SectionEvent s t) : Calms s t := .single (.event h)
theorem Calms.turns {s t : State} (h : Calms s t) : Turns s t := ReflTransGen.mono (fun _ _ h => Turn.calm h) _ _ h
theorem Apart.turns {s t : State} (h : Apart s t) : Turns s t := Calms.turns h.calms

theorem KeptByLoop.apart {s t : State} (h : KeptByLoop s t) : Apart s t :=
  ⟨h.active, h.mode, congrArg _ h.store, h.nodes, h.channels, h.points, h.positions, h.sections⟩

theorem KeptByOrders.apart {s t : State} (h : KeptByOrders s t) : Apart s t := h.toLoop.apart

theorem setLens_apart (s : State) (l : LensEngine) : Apart s (s.setLens l) := ⟨rfl, rfl, rfl, rfl, rfl, rfl, rfl, rfl⟩

/-- What each kind leaves alone. -/
theorem Calm.kept {s t : State} (h : Calm s t) : t.nodes = s.nodes ∧ t.points = s.points ∧ t.trip.positions = s.trip.positions ∧
    t.agent.active = s.agent.active ∧ t.agent.mode = s.agent.mode ∧ t.store.image = s.store.image := by
  have light : ∀ {u : State}, KeptByLight s u → u.nodes = s.nodes ∧ u.points = s.points ∧ u.trip.positions = s.trip.positions ∧
      u.agent.active = s.agent.active ∧ u.agent.mode = s.agent.mode ∧ u.store.image = s.store.image := fun k =>
    ⟨k.nodes, k.points, k.positions, k.active, k.mode, congrArg _ k.store⟩
  cases h with
  | apart h => exact ⟨h.nodes, h.points, h.positions, h.active, h.mode, h.image⟩
  | channel own how => exact light (changeChannel_kept s _ _ _)
  | event h =>
    cases h with
    | persistence i => exact light (persistenceExpiry_kept s i).toKeptByLight
    | blocked i => exact light (setBlockOn_kept s i).toKeptByLight
    | unblocked i => exact light (setBlockOff_kept s i).toKeptByLight
    | maintained i on => exact light (setMaintenance_kept s i on).toKeptByLight
    | released i => exact light (release_kept s i).toKeptByLight

theorem Calms.points {s t : State} (h : Calms s t) : t.points = s.points := by
  induction h with
  | refl => rfl
  | tail _ k ih => exact k.kept.2.1.trans ih

/-! ## Light Qualifier -/

/-- A change of a channel's record that its report would not carry: the record alone is replaced (R51). -/
theorem changeChannel_unviewed (s : State) (c : Nat) {old new : ChannelRec} (h : old.view = new.view) :
    s.changeChannel c old new = s.setChannel c new := if_pos h

/-- A change of a channel's record, read in a state that differs beside the records. -/
theorem Apart.thenChannel {s u : State} (h : Apart s u) {c : Nat} {old new : ChannelRec} (own : s.channel c = some old)
    (how : Reworked (s.tables.channel c) old new) : Calms s (u.changeChannel c old new) := by
  rw [← State.tables_congr h.active] at how
  exact h.calms.tail (.channel ((State.channel_congr h.channels c).trans own) how)

theorem changeChannel_calms {s : State} {c : Nat} {old new : ChannelRec} (own : s.channel c = some old)
    (how : Reworked (s.tables.channel c) old new) : Calms s (s.changeChannel c old new) := .single (.channel own how)

theorem processSample_calms (s : State) (c : Nat) (x : Sample) : Calms s (s.processSample c x) := by
  unfold State.processSample
  split
  · exact .refl
  next r own =>
    exact Apart.thenChannel ((flickerRecord_kept s c _).trans (flickerRecord_kept _ c _)).apart own (.sample x)

theorem processMany_calms (s : State) (c : Nat) (x : Sample) (n : Nat) : Calms s (s.processMany c x n) := by
  induction n generalizing s with
  | zero => exact .refl
  | succ n ih => exact (processSample_calms s c x).trans (ih _)

theorem processDelivered_calms (s : State) (c level gap : Nat) : Calms s (s.processDelivered c level gap) := by
  unfold State.processDelivered
  split
  · exact .refl
  · exact ((processMany_calms s c _ _).trans (processMany_calms _ c _ _)).trans (processSample_calms _ c _)

theorem channelStale_calms (s : State) (c : Nat) : Calms s (s.channelStale c) := by
  unfold State.channelStale
  split
  next r own => exact changeChannel_calms own .noData
  · exact .refl

theorem channelLive_calms (s : State) (c : Nat) : Calms s (s.channelLive c) := by
  unfold State.channelLive
  split
  next r own =>
    split
    · exact changeChannel_calms own .live
    · exact .refl
  · exact .refl

theorem startTesting_calms (s : State) (c : Nat) : Calms s (s.startTesting c) := by
  unfold State.startTesting
  split
  next r own => exact changeChannel_calms own .testing
  · exact .refl

theorem leaveTesting_calms (s : State) (c : Nat) (a : Option Nat) : Calms s (s.leaveTesting c a) := by
  unfold State.leaveTesting
  split
  next r own =>
    split
    · exact .refl
    · split
      · have returned : Calms s (s.changeChannel c r { r with cond := r.standing.cond }) := changeChannel_calms own .returned
        dsimp only
        split
        · exact returned.trans (processSample_calms _ c _)
        · exact returned
      · exact changeChannel_calms own .noData
  · exact .refl

/-- The raw level of a delivered sample (R45). -/
theorem setRaw_calms {s : State} {c : Nat} {r : ChannelRec} (own : s.channel c = some r) (level : Nat) :
    Calms s (s.setChannel c { r with raw := some level }) := by
  rw [← changeChannel_unviewed s c (show r.view = ({ r with raw := some level } : ChannelRec).view from rfl)]
  exact changeChannel_calms own (.raw level)

/-! ## Lens Check Engine -/

theorem offerTest_apart (s : State) (f : TestFrame) : Apart s (s.offerTest f) := by
  unfold State.offerTest
  split
  · exact (pushControl_kept s _).apart
  · exact setLens_apart s _

theorem putOutLamp_apart (s : State) (c : Nat) : Apart s (s.putOutLamp c) := by
  unfold State.putOutLamp
  split
  · exact setLens_apart s _
  · split
    · exact .refl s
    · exact offerTest_apart s _

theorem endTest_calms (s : State) (c : Nat) (r : LensResult) (a : Option Nat) : Calms s (s.endTest c r a) :=
  ((record_kept s _).apart.calms.trans (leaveTesting_calms _ c a)).trans
    ((putOutLamp_apart _ c).trans (setLens_apart _ _)).calms

theorem completeWindow_calms (s : State) (c : Nat) : Calms s (s.completeWindow c) := by
  unfold State.completeWindow
  split
  · exact .refl
  next r own =>
    have hands : ∀ g standing, s.handOver c g standing = s.changeChannel c r { r with gain := g, standing := standing } :=
      fun g standing => by
        rw [changeChannel_unviewed s c (by rfl)]
        unfold State.handOver
        rw [own]
    dsimp only
    rw [hands]
    exact (changeChannel_calms own (.handedOver s.lens.peak _)).trans (endTest_calms _ c _ _)

theorem countFlagged_calms (s : State) (c n p : Nat) : Calms s (s.countFlagged c n p) := by
  unfold State.countFlagged
  dsimp only
  split
  · exact (setLens_apart s _).calms.trans (completeWindow_calms _ c)
  · exact (setLens_apart s _).calms

theorem lensSample_calms (s : State) (c level : Nat) (flag : Bool) : Calms s (s.lensSample c level flag) := by
  unfold State.lensSample
  split
  · exact .refl
  · split
    · exact endTest_calms s c _ _
    · split
      · exact countFlagged_calms s c _ _
      · exact endTest_calms s c _ _
      · exact countFlagged_calms s c _ _
      · exact .refl

theorem deliverLight_calms (s : State) (c level : Nat) (flag : Bool) (gap : Nat) : Calms s (s.deliverLight c level flag gap) := by
  unfold State.deliverLight
  split
  · exact .refl
  next r own =>
    have raw := setRaw_calms own level
    dsimp only
    split
    · exact raw.trans (processDelivered_calms _ c _ _)
    · exact raw.trans (processDelivered_calms _ c _ _)
    · exact raw.trans (lensSample_calms _ c _ _)
    · exact raw

theorem startWaitExpiry_calms (s : State) : Calms s s.startWaitExpiry := by
  unfold State.startWaitExpiry
  split
  · exact endTest_calms s _ _ _
  · exact .refl

theorem testWindowComplete_calms (s : State) : Calms s s.testWindowComplete := by
  unfold State.testWindowComplete
  split
  · split
    · exact countFlagged_calms s _ _ _
    · exact .refl
  · exact .refl

theorem lensNodeStale_calms (s : State) (n : Nat) : Calms s (s.lensNodeStale n) := by
  unfold State.lensNodeStale
  split
  · exact .refl
  · exact .refl
  · split
    · exact endTest_calms s _ _ _
    · exact .refl

theorem testLens_calms (s : State) (c : Nat) : Calms s (s.testLens c).1 := by
  unfold State.testLens
  split
  · exact (((setLens_apart s _).trans (disturb_kept _).apart).calms.trans (startTesting_calms _ c)).trans
      ((offerTest_apart _ _).trans (setLens_apart _ _)).calms
  · exact .refl

/-! ## Current Confirmation Unit -/

theorem pointGap_turns (s : State) (p gap : Nat) : Turns s (s.pointGap p gap) := by
  unfold State.pointGap
  split
  next r own => exact .single (.point _ own)
  · exact .refl

theorem pointSample_turns (s : State) (p : Nat) (x : Phases) : Turns s (s.pointSample p x) := by
  unfold State.pointSample
  split
  next r own => exact .single (.point _ own)
  · exact .refl

theorem pointStale_turns (s : State) (p : Nat) : Turns s (s.pointStale p) := by
  unfold State.pointStale
  split
  next r own => exact .single (.point _ own)
  · exact .refl

theorem pointLive_turns (s : State) (p : Nat) : Turns s (s.pointLive p) := by
  unfold State.pointLive
  split
  next r own =>
    split
    · exact .single (.point _ own)
    · exact .refl
  · exact .refl

/-! ## Positions -/

theorem positionUnknown_turns (s : State) (b : Nat) : Turns s (s.positionUnknown b) := by
  unfold State.positionUnknown
  split
  next old own => exact .single (.position _ own)
  · exact .refl

theorem deliverPosition_turns (s : State) (b : Nat) (p : Position) : Turns s (s.deliverPosition b p) := by
  unfold State.deliverPosition
  split
  · exact .refl
  next old own =>
    split
    · exact .refl
    · exact (ReflTransGen.single (.position _ own)).trans ((record_kept _ _).trans (orderSeesPosition_kept _ b p)).apart.turns

/-! ## Node Admission -/

theorem turns_foldl {f : State → α → State} (hf : ∀ s a, Turns s (f s a)) (l : List α) (s : State) : Turns s (l.foldl f s) :=
  keeps_foldl (fun _ => .refl) ReflTransGen.trans hf l s

theorem deliver_turns (s : State) (n gap : Nat) (c : Contents) : Turns s (s.deliver n gap c) := by
  cases c with
  | light xs =>
    exact deliverAll_keeps (fun _ => .refl) ReflTransGen.trans (fun s c x => (deliverLight_calms s c _ _ _).turns) 0 xs s
  | current xs =>
    exact deliverAll_keeps (fun _ => .refl) ReflTransGen.trans
      (fun s p x => (pointGap_turns s p gap).trans (pointSample_turns _ p x)) 0 xs s
  | positions xs =>
    exact deliverAll_keeps (fun _ => .refl) ReflTransGen.trans (fun s b x => deliverPosition_turns s b x) 0 xs s

theorem tellStale_turns (n : Nat) (s : State) : Turns s (State.tellStale n s) := by
  unfold State.tellStale
  exact (((turns_foldl (fun s c => (channelStale_calms s c).turns) (s.channelsOfNode n) s).trans
    (turns_foldl pointStale_turns _ _)).trans (turns_foldl positionUnknown_turns _ _)).trans (lensNodeStale_calms _ n).turns

theorem tellLive_turns (n : Nat) (s : State) : Turns s (State.tellLive n s) :=
  (turns_foldl (fun s c => (channelLive_calms s c).turns) _ s).trans (turns_foldl pointLive_turns _ _)

theorem tellNeighbours_turns {tell : State → State} (h : ∀ s, Turns s (tell s)) (s : State) :
    Turns s (s.tellNeighbours tell) := by
  have drawn : Apart s { s with draws := s.draws + 1 } := ⟨rfl, rfl, rfl, rfl, rfl, rfl, rfl, rfl⟩
  have cut : ∀ u : State, Apart u u.recomputeCut := fun u => (recomputeCut_kept u).apart
  unfold State.tellNeighbours
  split
  · dsimp only
    split
    · exact (drawn.trans (cut _)).turns.trans (h _)
    · exact (drawn.turns.trans (h _)).trans (cut _).turns
  · exact h s

/-- The record of a node that is heard or lost, and the record of the event (R30 to R35). -/
theorem toldOf_turns {s : State} {n : Nat} {r : NodeRec} (own : s.node n = some r) (new : NodeRec) (e : RecordBody) :
    Turns s (s.toldOf n new e) := (ReflTransGen.single (.node new own)).trans (record_kept _ e).apart.turns

theorem becomeLive_turns {s : State} {n : Nat} {r : NodeRec} (own : s.node n = some r) (seq : Byte) :
    Turns s (s.becomeLive n r seq) := by
  have told : ((s.livening n r seq).tellNeighbours (State.tellLive n)).node n =
      some { r with live := .live, lastSeq := some seq } := by
    rw [State.node_congr (tellNeighbours_nodes (tellLive_byDemands n) _)]
    exact (State.node_setNode s n n _).trans (if_pos ⟨rfl, node_lt own⟩)
  rw [becomeLive_eq]
  exact ((toldOf_turns own _ _).trans (tellNeighbours_turns (tellLive_turns n) _)).tail (.node _ told)

theorem stayLive_turns {s : State} {n : Nat} {r : NodeRec} (own : s.node n = some r) (seq : Byte) (d : Nat) :
    Turns s (s.stayLive n seq d) := by
  have set : Turns s (s.setNode n ⟨.live, some seq, .running (s.staleLimit n)⟩) := .single (.node _ own)
  unfold State.stayLive
  dsimp only
  split
  · exact set.trans (record_kept _ _).apart.turns
  · exact set

theorem nodeFrame_turns (s : State) (k : NodeKind) (source seq : Byte) (p : List Byte) : Turns s (s.nodeFrame k source seq p) := by
  unfold State.nodeFrame
  split
  · exact .refl
  · split
    · exact .refl
    · split
      · exact .refl
      next own =>
        unfold State.acceptFrame
        split
        · dsimp only
          split
          · exact .refl
          · exact (stayLive_turns own _ _).trans (deliver_turns _ _ _ _)
        · exact (becomeLive_turns own _).trans (deliver_turns _ _ _ _)

theorem inFrame_turns (s : State) (k : NodeKind) (source seq : Byte) (p : List Byte) (brings : Nat → Nat → Contents → Bool) :
    Turns s (s.inFrame k source seq p brings) := by
  rcases inFrame_cases s k source seq p brings with h | h <;> rw [h]
  · exact nodeFrame_turns s k source seq p

theorem staleExpiry_turns (s : State) (n : Nat) : Turns s (s.staleExpiry n) := by
  cases own : s.node n with
  | none =>
    unfold State.staleExpiry
    rw [own]
  | some r =>
    by_cases due : r.live = .live ∧ r.timer.isRunning = true
    · rw [staleExpiry_eq own due.1 due.2]
      exact (toldOf_turns own _ _).trans (tellNeighbours_turns (tellStale_turns n) _)
    · unfold State.staleExpiry
      rw [own]
      dsimp only
      rw [if_neg due]

/-! ## Management Agent, Setting Store and Supply Monitor -/

theorem serveReadEvents_apart (ps : List Byte) (s : State) : Apart s (serveReadEvents ps s).1 := by
  unfold serveReadEvents
  repeat' split
  all_goals exact ⟨rfl, rfl, rfl, rfl, rfl, rfl, rfl, rfl⟩

theorem serveWriteShadow_apart (ps : List Byte) (s : State) : Apart s (serveWriteShadow ps s).1 := by
  unfold serveWriteShadow
  repeat' split
  all_goals exact ⟨rfl, rfl, rfl, rfl, rfl, rfl, rfl, rfl⟩

theorem serveDiscardShadow_apart (ps : List Byte) (s : State) : Apart s (serveDiscardShadow ps s).1 := by
  unfold serveDiscardShadow
  repeat' split
  all_goals exact ⟨rfl, rfl, rfl, rfl, rfl, rfl, rfl, rfl⟩

theorem serveActivate_apart (source tag : Byte) (ps : List Byte) (s : State) : Apart s (serveActivate source tag ps s).1 := by
  unfold serveActivate
  repeat' split
  all_goals exact ⟨rfl, rfl, rfl, rfl, rfl, rfl, rfl, rfl⟩

theorem serveSoftReset_apart (ps : List Byte) (s : State) : Apart s (serveSoftReset ps s).1 := by
  unfold serveSoftReset
  split <;> exact ⟨rfl, rfl, rfl, rfl, rfl, rfl, rfl, rfl⟩

theorem serveReclaim_apart (ps : List Byte) (s : State) : Apart s (serveReclaim ps s).1 := by
  unfold serveReclaim
  split
  · exact ((enterClaiming_kept s).trans (settleRoom_kept _)).apart
  · exact .refl s

theorem serveRelease_calms (ps : List Byte) (s : State) : Calms s (serveRelease ps s).1 := by
  unfold serveRelease
  split
  · exact (SectionEvent.released _).calms
  · exact .refl

theorem serveSetMaintenance_calms (ps : List Byte) (s : State) : Calms s (serveSetMaintenance ps s).1 := by
  unfold serveSetMaintenance
  split
  · split
    · exact (SectionEvent.maintained _ _).calms
    · exact .refl
  · exact .refl

theorem serveSetBlock_calms (ps : List Byte) (s : State) : Calms s (serveSetBlock ps s).1 := by
  unfold serveSetBlock
  split
  · split
    · exact (SectionEvent.blocked _).calms
    · exact (SectionEvent.unblocked _).calms
    · exact .refl
  · exact .refl

theorem serveTestLens_calms (ps : List Byte) (s : State) : Calms s (serveTestLens ps s).1 := by
  unfold serveTestLens
  split
  · exact testLens_calms s _
  · exact .refl

theorem serveCode_calms (code source tag : Byte) (ps : List Byte) (s : State) : Calms s (serveCode code source tag ps s).1 := by
  have reading := serveReading_same code source tag ps s
  unfold serveCode at reading ⊢
  split
  case h_2 => exact (serveReadEvents_apart ps s).calms
  case h_6 => exact (serveWriteShadow_apart ps s).calms
  case h_7 => exact (serveDiscardShadow_apart ps s).calms
  case h_8 => exact (serveActivate_apart source tag ps s).calms
  case h_9 => exact serveRelease_calms ps s
  case h_10 => exact serveSetMaintenance_calms ps s
  case h_11 => exact serveSetBlock_calms ps s
  case h_12 => exact serveTestLens_calms ps s
  case h_13 => exact (serveReclaim_apart ps s).calms
  case h_14 => exact (serveSoftReset_apart ps s).calms
  all_goals
    rename_i e
    rw [e] at reading
    rw [reading (by simp)]

theorem takeRequest_calms (source tag code : Byte) (ps : List Byte) (s : State) :
    Calms s (s.takeRequest source tag code (serveCode code source tag ps)) := by
  have served := serveCode_calms code source tag ps s
  unfold State.takeRequest
  split
  · exact .refl
  · split <;> rename_i e <;> rw [e] at served
    · exact served.trans (respond_kept _ _).apart.calms
    · exact served

theorem requestFrame_calms (s : State) (source : Byte) (payload : List Byte) : Calms s (s.requestFrame source payload) := by
  unfold State.requestFrame
  split
  · exact takeRequest_calms _ _ _ _ s
  · exact .refl

theorem storeComplete_apart (s : State) (a : Bool) : Apart s (s.storeComplete a) := by
  unfold State.storeComplete
  split
  · exact ⟨rfl, rfl, rfl, rfl, rfl, rfl, rfl, rfl⟩
  · exact .refl s

theorem warningFall_apart (s : State) : Apart s s.warningFall := by
  unfold State.warningFall
  split
  · exact .refl s
  · exact ⟨rfl, rfl, rfl, rfl, rfl, rfl, rfl, rfl⟩

theorem warningRise_apart (s : State) : Apart s s.warningRise := by
  unfold State.warningRise
  split
  · exact ⟨rfl, rfl, rfl, rfl, rfl, rfl, rfl, rfl⟩
  · exact .refl s

theorem beginHardReset_apart (s : State) (d : Bool) : Apart s (s.beginHardReset d) := by
  unfold State.beginHardReset
  split <;> exact ⟨rfl, rfl, rfl, rfl, rfl, rfl, rfl, rfl⟩

theorem loseRetention_apart (s : State) : Apart s s.loseRetention :=
  (beginHardReset_apart s true).trans ⟨rfl, rfl, rfl, rfl, rfl, rfl, rfl, rfl⟩

end Sys2Proof.Machine
end

section
/-! SUPPORT. What one command is: a run of changes, or an activation or a reset; and the rule for an invariant of the tables, the records
of the blocks and the Section Evaluator. -/

namespace Sys2Proof.Machine

open Sys2Proof.Safety
open Relation (ReflTransGen)

/-- The commands that can change more than channels and sections: the node frames, a stale timer, and those that can bring an activation
or a reset. -/
def reachesFurther : Instr → Bool
  | .frameArrival _ | .lightSample .. | .currentSample .. | .position .. | .staleTimerExpiry _ | .flickerWindowClose _
  | .stretchExpiry _ | .sendingComplete | .validationComplete | .softResetTakesEffect | .hardResetEnd _ => true
  | _ => false

theorem outsideReset_calms {f : State → State} (h : ∀ s, Calms s (f s)) (s : State) : Calms s (s.outsideReset f) := by
  unfold State.outsideReset
  split
  · exact .refl
  · exact h s

/-- A request leaves the records of nodes, points and breakers alone. -/
theorem request_calms (source tag code : Byte) (ps : List Byte) (s : State) :
    Calms s (s.outsideReset fun s => s.takeRequest source tag code (serveCode code source tag ps)) :=
  outsideReset_calms (takeRequest_calms source tag code ps) s

/-- Every other command leaves the records of nodes, points and breakers alone. -/
theorem exec_calms {s t : State} {c : Instr} (h : reachesFurther c = false) (run : exec c s = .next t) : Calms s t := by
  have loop : ∀ {f : State → State}, (∀ s, KeptByLoop s (f s)) → Calms s (s.outsideReset f) :=
    fun kept => outsideReset_calms (fun u => (kept u).apart.calms) s
  have apart : ∀ {f : State → State}, (∀ s, Apart s (f s)) → Calms s (s.outsideReset f) :=
    fun kept => outsideReset_calms (fun u => (kept u).calms) s
  cases c <;> cases h <;> cases run
  case supervision => exact loop supervisionReturns_kept
  case beacon => exact loop beaconReturns_kept
  case claim seq payload => exact loop fun u => claimReturns_kept u seq payload
  case claimTimerExpiry => exact loop claimExpiry_kept
  case supervisionSendTimerExpiry => exact loop supervisionSendExpiry_kept
  case supervisionTimerExpiry => exact loop supervisionExpiry_kept
  case beaconTimerExpiry => exact loop beaconExpiry_kept
  case claimQueuedAtRoom => exact loop queueWaitingClaim_kept
  case heldTestFrameQueued => exact loop queueHeldTests_kept
  case heldResponseQueued => exact loop fun u => offerHeldResponses_kept u _
  case persistenceTimerExpiry j => exact outsideReset_calms (fun _ => (SectionEvent.persistence j).calms) s
  case resendTimerExpiry b => exact loop fun u => (resendExpiry_kept u b).toLoop
  case failureTimerExpiry b => exact loop fun u => (failureExpiry_kept u b).toLoop
  case minimumPulseTimerExpiry l => exact loop fun u => (pulseExpiry_kept u l).toLoop
  case startWaitTimerExpiry => exact outsideReset_calms startWaitExpiry_calms s
  case testWindowComplete => exact outsideReset_calms testWindowComplete_calms s
  case storeWriteComplete agrees => exact apart fun u => storeComplete_apart u agrees
  case supplyWarningFall => exact apart warningFall_apart
  case supplyWarningRise => exact apart warningRise_apart
  case supplyDipReset => exact (beginHardReset_apart s true).calms
  case resetnLow => exact (beginHardReset_apart s false).calms
  case supplyBelowRetention => exact (loseRetention_apart s).calms
  case readStatus source tag ps => exact request_calms source tag 0x01 ps s
  case readEvents source tag ps => exact request_calms source tag 0x02 ps s
  case readChannel source tag ps => exact request_calms source tag 0x03 ps s
  case readOrders source tag ps => exact request_calms source tag 0x04 ps s
  case readTable source tag ps => exact request_calms source tag 0x05 ps s
  case writeShadow source tag ps => exact request_calms source tag 0x10 ps s
  case discardShadow source tag ps => exact request_calms source tag 0x11 ps s
  case activate source tag ps => exact request_calms source tag 0x12 ps s
  case release source tag ps => exact request_calms source tag 0x20 ps s
  case setMaintenance source tag ps => exact request_calms source tag 0x21 ps s
  case setBlockOn source tag sect => exact request_calms source tag 0x22 [sect, 1] s
  case setBlockOff source tag sect => exact request_calms source tag 0x22 [sect, 0] s
  case testLens source tag ps => exact request_calms source tag 0x23 ps s
  case reclaim source tag ps => exact request_calms source tag 0x30 ps s
  case softReset source tag ps => exact request_calms source tag 0x31 ps s
  case unknownRequestCode source tag code ps => exact request_calms source tag code ps s

/-- A frame of the loop is a run of changes (R3, R4). -/
theorem receive_turns (s : State) (bytes : List Byte) : Turns s (s.receive bytes) := by
  unfold State.receive State.goodFrame
  split
  · split
    · split
      · exact (supervisionReturns_kept s).apart.turns
      · exact (beaconReturns_kept s).apart.turns
      · exact (claimReturns_kept s _ _).apart.turns
      · exact .refl
    · split
      · exact .refl
      · split
        · exact nodeFrame_turns s _ _ _ _
        · exact nodeFrame_turns s _ _ _ _
        · exact nodeFrame_turns s _ _ _ _
        · exact (requestFrame_calms s _ _).turns
        · exact .refl
  · exact .refl

/-- What an invariant of the tables, the records and the Section Evaluator needs to be kept by every step: the changes keep it, and so do
an activation, the resets and the passing of time. -/
structure KeptByTurns (I : State → Prop) : Prop where
  turn : ∀ {s t : State}, Turn s t → I s → I t
  swap : ∀ {s : State}, s.agent.shadow.validate = none → I s → I s.swap
  softReset : ∀ {s : State}, I s → I s.softBase
  ends : ∀ {s : State} (h : HardReset) (mv : Nat), I s → I (s.hardBase h mv)
  tick : ∀ {s : State}, Up s → I s → I s.tick

section
variable {I : State → Prop} (k : KeptByTurns I)
include k

theorem KeptByTurns.turns {s t : State} (h : Turns s t) (i : I s) : I t := by
  induction h with
  | refl => exact i
  | tail _ turn ih => exact k.turn turn ih

theorem KeptByTurns.apart {s t : State} (h : Apart s t) (i : I s) : I t := k.turns h.turns i

theorem KeptByTurns.performSoftReset {s : State} (i : I s) : I s.performSoftReset :=
  k.apart (enterClaiming_kept _).apart (k.softReset i)

theorem KeptByTurns.sendingCompletes {s : State} (i : I s) : I s.sendingCompletes := by
  unfold State.sendingCompletes
  split
  · exact i
  · split
    · exact k.performSoftReset i
    · exact k.apart (((claimSent_kept s _).trans (startNext_kept _).toLoop).trans (settleRoom_kept _)).apart i

theorem KeptByTurns.validationCompletes {s : State} (i : I s) : I s.validationCompletes := by
  have ends : ∀ (u : State) (r : Response), Apart u (u.endValidation.respond r) := fun u r =>
    Apart.trans (t := u.endValidation) ⟨rfl, rfl, rfl, rfl, rfl, rfl, rfl, rfl⟩ (respond_kept _ r).apart
  unfold State.validationCompletes
  split
  · split
    · exact k.apart (ends s _) i
    · split
      · exact k.apart (ends s _) i
      next passes => exact k.apart (ends _ _) (k.swap passes i)
  · exact i

theorem KeptByTurns.endHardReset {s : State} (mv : Nat) (i : I s) : I (s.endHardReset mv) := by
  unfold State.endHardReset
  split
  · split
    · exact k.apart (enterClaiming_kept _).apart (k.ends _ mv i)
    · exact i
  · exact i

/-- The commands that reach further keep the invariant. -/
theorem KeptByTurns.exec_further {s t : State} {c : Instr} (further : reachesFurther c = true)
    (run : Machine.exec c s = .next t) (i : I s) : I t := by
  have outside : ∀ {f : State → State}, (∀ {s}, Up s → I s → I (f s)) → I (s.outsideReset f) :=
    fun hf => outsideReset_holds hf i
  cases c <;> cases further <;> cases run
  case frameArrival bytes => exact outside fun _ => k.turns (receive_turns _ bytes)
  case lightSample source seq payload => exact outside fun _ => k.turns (nodeFrame_turns _ .light source seq payload)
  case currentSample source seq payload => exact outside fun _ => k.turns (nodeFrame_turns _ .current source seq payload)
  case position source seq payload => exact outside fun _ => k.turns (nodeFrame_turns _ .breaker source seq payload)
  case staleTimerExpiry n => exact outside fun _ => k.turns (staleExpiry_turns _ n)
  case flickerWindowClose e => exact outside fun _ => k.turns (inFrame_turns _ _ _ _ _ _)
  case stretchExpiry e => exact outside fun _ => k.turns (inFrame_turns _ _ _ _ _ _)
  case sendingComplete => exact outside fun _ => k.sendingCompletes
  case validationComplete => exact outside fun _ => k.validationCompletes
  case softResetTakesEffect =>
    refine outside fun _ j => ?_
    split
    · exact k.performSoftReset j
    · exact j
  case hardResetEnd mv => exact k.endHardReset mv i

/-- Every command keeps the invariant. -/
theorem KeptByTurns.exec {s t : State} {c : Instr} (run : Machine.exec c s = .next t) (i : I s) : I t := by
  cases further : reachesFurther c with
  | false => exact k.turns (exec_calms further run).turns i
  | true => exact k.exec_further further run i

/-- Every step keeps the invariant. -/
theorem KeptByTurns.step {s t : State} (run : Machine.step s = .next t) (i : I s) : I t := by
  unfold Machine.step at run
  split at run
  · exact k.exec run (k.apart (s := s) ⟨rfl, rfl, rfl, rfl, rfl, rfl, rfl, rfl⟩ i)
  · split at run
    · exact k.exec run i
    · cases run
      by_cases up : Up s
      · exact k.tick up i
      · unfold State.tick
        rw [if_pos (Option.isSome_iff_ne_none.2 up)]
        exact i

end

end Sys2Proof.Machine
end

section
/-! SUPPORT. The bounds of a channel's quantities (R47): what each change makes of the channel records, and what an activation, a reset and
the passing of time leave of them. -/

namespace Sys2Proof.Machine

open Sys2Proof.Safety

/-! ## What a change makes of the channel records -/

theorem channel_lt {s : State} {c : Nat} {r : ChannelRec} (h : s.channel c = some r) : c < Config.channelCount := by
  by_contra high
  unfold State.channel at h
  rw [Vector.getElem?_eq_none (by omega)] at h
  cases h

/-- No change makes or removes a channel record, and one that it changes the Light Qualifier has reworked. -/
theorem Turn.channel {s t : State} (h : Turn s t) (j : Nat) : t.channel j = s.channel j ∨
    ∃ r r', s.channel j = some r ∧ t.channel j = some r' ∧ Reworked (s.tables.channel j) r r' := by
  have same : ∀ {u : State}, u.channels = s.channels → u.channel j = s.channel j ∨
      ∃ r r', s.channel j = some r ∧ u.channel j = some r' ∧ Reworked (s.tables.channel j) r r' := fun e =>
    .inl (State.channel_congr e j)
  cases h with
  | calm h =>
    cases h with
    | apart h => exact same h.channels
    | @channel c old new own how =>
      rw [channel_changeChannel_of_some own]
      split
      next e =>
        subst e
        exact .inr ⟨old, new, own, rfl, how⟩
      next => exact .inl rfl
    | event h =>
      cases h with
      | persistence i => exact same (persistenceExpiry_kept s i).channels
      | blocked i => exact same (setBlockOn_kept s i).channels
      | unblocked i => exact same (setBlockOff_kept s i).channels
      | maintained i on => exact same (setMaintenance_kept s i on).channels
      | released i => exact same (release_kept s i).channels
  | node new own => exact .inl rfl
  | point new own => exact same (changePoint_kept s _ _ _).channels
  | position new own => exact .inl rfl

/-- No change touches the tables in force, the mode, or the stored image. -/
theorem Turn.tables {s t : State} (h : Turn s t) :
    t.agent.active = s.agent.active ∧ t.agent.mode = s.agent.mode ∧ t.store.image = s.store.image := by
  cases h with
  | calm h =>
    obtain ⟨-, -, -, active, mode, image⟩ := h.kept
    exact ⟨active, mode, image⟩
  | node new own => exact ⟨rfl, rfl, rfl⟩
  | @point p old new own =>
    have kept := changePoint_kept s p old new
    exact ⟨kept.active, kept.mode, congrArg _ kept.store⟩
  | position new own => exact ⟨rfl, rfl, rfl⟩

/-- Device time touches no channel or point record, no position, no view and no table. -/
theorem tick_same (s : State) : s.tick.channels = s.channels ∧ s.tick.points = s.points ∧
    s.tick.trip.positions = s.trip.positions ∧ s.tick.sections.channelViews = s.sections.channelViews ∧
    s.tick.sections.pointViews = s.sections.pointViews ∧ s.tick.agent = s.agent ∧ s.tick.store = s.store := by
  unfold State.tick
  split <;> exact ⟨rfl, rfl, rfl, rfl, rfl, rfl, rfl⟩

/-- The store write at the end of a swap touches the Setting Store alone (R161, R188). -/
theorem beginStoreWrite_same (s : State) : s.beginStoreWrite.nodes = s.nodes ∧ s.beginStoreWrite.channels = s.channels ∧
    s.beginStoreWrite.points = s.points ∧ s.beginStoreWrite.trip = s.trip ∧ s.beginStoreWrite.sections = s.sections ∧
    s.beginStoreWrite.agent = s.agent ∧ s.beginStoreWrite.store.image = s.agent.active := ⟨rfl, rfl, rfl, rfl, rfl, rfl, rfl⟩

theorem swap_swapped (s : State) : s.swap = s.swapped.beginStoreWrite := rfl

/-- What a swap leaves of the records of the blocks and of the tables (R161). -/
theorem swap_keeps (s : State) : SwapKeeps s.newTables s.swap := by
  obtain ⟨nodes, channels, points, trip, -, agent, -⟩ := beginStoreWrite_same s.swapped
  rw [swap_swapped]
  refine (swapped_keeps s).trans ⟨nodes, channels, points, congrArg _ trip, ?_, ?_, ?_⟩ <;> rw [agent]

/-- The tables in force and stored after a swap, and its mode (R161, R188). -/
theorem swap_tables (s : State) : s.swap.agent.active = s.agent.shadow ∧ s.swap.agent.mode = .protecting ∧
    s.swap.store.image = s.agent.shadow := by
  have keeps := swap_keeps s
  obtain ⟨agent, -⟩ := newTables_values s
  have active : s.swap.agent.active = s.agent.shadow := keeps.active.trans (congrArg Agent.active agent)
  obtain ⟨-, -, -, -, -, same, image⟩ := beginStoreWrite_same s.swapped
  refine ⟨active, keeps.mode.trans (congrArg Agent.mode agent), ?_⟩
  rw [swap_swapped] at active ⊢
  exact image.trans ((congrArg Agent.active same).symm.trans active)

/-- After an activation a channel has the record it had, or a fresh one (R65). -/
theorem channel_swap {s : State} {c : Nat} {r : ChannelRec} (h : s.swap.channel c = some r) :
    s.channel c = some r ∨ s.agent.shadow.channelUsed c = true ∧ ∃ cond, r = .fresh (s.agent.shadow.channel c) cond := by
  have known := channel_lt h
  rw [State.channel_congr (swap_keeps s).channels, newTables_channel s known] at h
  split at h
  · exact .inl h
  · split at h
    next used => exact .inr ⟨used, _, (Option.some.inj h).symm⟩
    next => cases h

/-- A channel that has a record after a reset has a fresh one (R44). -/
theorem Fresh.channel {set : Tables} {t : State} (fresh : Fresh set t) {c : Nat} {r : ChannelRec} (h : t.channel c = some r) :
    set.channelUsed c = true ∧ r = .fresh (set.channel c) .noData := by
  obtain ⟨-, channels, -, -⟩ := fresh.records
  rw [channels c (channel_lt h)] at h
  split at h
  next used => exact ⟨used, (Option.some.inj h).symm⟩
  next => cases h

/-! ## Bounds (R46 to R48, R141) -/

theorem integAfter_le (e : ChannelEntry) {integ : Nat} (h : integ ≤ 65535) (level : Option Nat) :
    integAfter e integ level ≤ 65535 := by
  unfold integAfter integrate
  split
  · split
    · exact min_le_left _ _
    · omega
  · omega

/-- A test leaves a gain within bounds (R141). -/
theorem gainResult_bounded (reference peak : Nat) {gain : Nat} (low : 256 ≤ gain) (high : gain ≤ 1023) :
    256 ≤ (gainResult reference peak gain).2.1 ∧ (gainResult reference peak gain).2.1 ≤ 1023 := by
  unfold gainResult
  split
  · exact ⟨low, high⟩
  · split <;> simp only [Config.gainMax, Config.gainMin] at * <;> omega

/-- Whatever the Light Qualifier makes of a record within its bounds is within them (R47). -/
theorem Reworked.bounded {e : ChannelEntry} {r r' : ChannelRec} (h : Reworked e r r') (b : ChannelBounded r) : ChannelBounded r' := by
  obtain ⟨integ, comp, low, high⟩ := b
  cases h with
  | raw level => exact ⟨integ, comp, low, high⟩
  | sample x =>
    obtain ⟨compAfter, integAfter', -, gain, -⟩ := process_fields e r x
    refine ⟨?_, fun c own => ?_, by rw [gain]; exact low, by rw [gain]; exact high⟩
    · rw [integAfter']
      exact integAfter_le e integ _
    · rw [compAfter] at own
      cases x with
      | received level => exact Option.some.inj own ▸ min_le_left _ _
      | held => exact comp c own
      | missing => exact comp c own
  | noData => exact ⟨Nat.zero_le _, nofun, low, high⟩
  | live => exact ⟨integ, comp, low, high⟩
  | testing => exact ⟨integ, comp, low, high⟩
  | returned => exact ⟨integ, comp, low, high⟩
  | handedOver peak standing =>
    obtain ⟨low', high'⟩ := gainResult_bounded e.reference.toNat peak low high
    exact ⟨integ, comp, low', high'⟩

/-! ## Validated tables give gains within the bounds (R157) -/

theorem validated_channelOk {t : Tables} (h : Validated t) {i : Nat} (small : i < 96) (inUse : t.channelUsed i = true) :
    t.channelOk i = true := by
  unfold Validated Tables.validate at h
  simp only [Option.or_eq_none_iff] at h
  obtain ⟨-, channels, -⟩ := h
  exact failureOf_none channels small inUse

theorem fresh_bounded {t : Tables} (h : Validated t) {i : Nat} (small : i < 96) (inUse : t.channelUsed i = true)
    (cond : ChannelCond) : ChannelBounded (.fresh (t.channel i) cond) := by
  have ok := validated_channelOk h small inUse
  unfold Tables.channelOk at ok
  simp only [Bool.and_eq_true, inRange, decide_eq_true_eq, Config.gainMin, Config.gainMax] at ok
  obtain ⟨⟨⟨-, low, high⟩, -⟩, -⟩ := ok
  exact ⟨Nat.zero_le _, nofun, low, high⟩

theorem failureOf_unused {table : TableId} {check : Nat} {used : Nat → Bool} (h : ∀ i, used i = false) (ok : Nat → Bool) :
    failureOf table check used ok = none := by
  unfold failureOf
  simp [h]

/-- A set with no entry in use is validated. -/
theorem empty_validated : Validated .empty := by
  have node : ∀ i, Tables.empty.nodeUsed i = false := fun i => by
    simp only [Tables.nodeUsed, Tables.node, Tables.empty, Vector.getElem?_replicate]
    split <;> rfl
  have channel : ∀ i, Tables.empty.channelUsed i = false := fun i => by
    simp only [Tables.channelUsed, Tables.channel, Tables.empty, Vector.getElem?_replicate]
    split <;> rfl
  have point : ∀ i, Tables.empty.pointUsed i = false := fun i => by
    simp only [Tables.pointUsed, Tables.point, Tables.empty, Vector.getElem?_replicate]
    split <;> rfl
  have breaker : ∀ i, Tables.empty.breakerUsed i = false := fun i => by
    simp only [Tables.breakerUsed, Tables.breaker, Tables.empty, Vector.getElem?_replicate]
    split <;> rfl
  have sect : ∀ i, Tables.empty.sectionUsed i = false := fun i => by
    simp only [Tables.sectionUsed, Tables.sectionAt, Tables.empty, Vector.getElem?_replicate]
    split <;> rfl
  unfold Validated Tables.validate
  simp only [failureOf_unused node, failureOf_unused channel, failureOf_unused point, failureOf_unused breaker,
    failureOf_unused sect, Option.or_none]

/-! ## The invariant -/

/-- The bounds hold, and the tables that gains are taken from are validated. -/
structure BoundedAndValidated (s : State) : Prop where
  bounded : LightBounded s
  validated : TablesValidated s

theorem boundedAndValidated_kept : KeptByTurns BoundedAndValidated where
  turn := fun {s t} turn ⟨bounded, validated⟩ => by
    obtain ⟨active, -, image⟩ := turn.tables
    refine ⟨fun j r' own => ?_, ?_⟩
    · rcases turn.channel j with same | ⟨r, r'', was, is, how⟩
      · exact bounded j r' (same.symm.trans own)
      · cases is.symm.trans own
        exact how.bounded (bounded j r was)
    · unfold TablesValidated
      rw [active, image]
      exact validated
  swap := fun {s} passes ⟨bounded, _⟩ => by
    obtain ⟨active, -, image⟩ := swap_tables s
    refine ⟨fun j r own => ?_, ?_⟩
    · rcases channel_swap own with was | ⟨used, cond, rfl⟩
      · exact bounded j r was
      · exact fresh_bounded passes (channel_lt own) used cond
    · unfold TablesValidated
      rw [active, image]
      exact ⟨passes, passes⟩
  softReset := fun {s} ⟨_, validated⟩ => by
    refine ⟨fun j r own => ?_, validated⟩
    obtain ⟨used, rfl⟩ := (softBase_fresh s).channel own
    exact fresh_bounded validated.1 (channel_lt own) used _
  ends := fun {s} h mv ⟨_, validated⟩ => by
    obtain ⟨-, -, agent, store, -⟩ := hardBase_values s h mv
    have read : Validated s.readStore.agent.active := by
      unfold State.readStore
      dsimp only
      split
      · exact validated.2
      · exact empty_validated
    refine ⟨fun j r own => ?_, ?_⟩
    · obtain ⟨used, rfl⟩ := (hardBase_fresh s h mv).channel own
      exact fresh_bounded read (channel_lt own) used _
    · unfold TablesValidated
      rw [agent, store]
      exact ⟨read, validated.2⟩
  tick := fun {s} _ ⟨bounded, validated⟩ => by
    obtain ⟨channels, -, -, -, -, agent, store⟩ := tick_same s
    refine ⟨fun j r own => bounded j r ((State.channel_congr channels j).symm.trans own), ?_⟩
    unfold TablesValidated
    rw [agent, store]
    exact validated

/-- Settles O52: what becomes of a channel record is within the bounds when the record was, or when its gain is a table's. -/
theorem stepKeepsLightBounded : Obligations.stepKeepsLightBounded := by
  unfold Obligations.stepKeepsLightBounded
  intro s t bounded validated step
  obtain ⟨bounded', validated'⟩ := boundedAndValidated_kept.step step ⟨bounded, validated⟩
  exact ⟨bounded', validated'⟩

end Sys2Proof.Machine
end

section
/-! SUPPORT. The records of the blocks stand for the in-use entries (R43, R68, R105), and the Section Evaluator's view holds what the
records hold (R51, R75, R80): what each change, an activation and a reset do to the records and to the view. -/

namespace Sys2Proof.Machine

open Sys2Proof.Safety

/-! ## Which records stand -/

/-- No change makes or removes a record. -/
theorem Turn.stands {s t : State} (h : Turn s t) : (∀ i, (t.node i).isSome = (s.node i).isSome) ∧
    (∀ i, (t.channel i).isSome = (s.channel i).isSome) ∧ (∀ i, (t.point i).isSome = (s.point i).isSome) ∧
    ∀ i, (t.position i).isSome = (s.position i).isSome := by
  have channels : ∀ i, (t.channel i).isSome = (s.channel i).isSome := fun i => by
    rcases h.channel i with same | ⟨r, r', was, is, -⟩
    · rw [same]
    · rw [was, is]
      rfl
  refine ⟨fun i => ?_, channels, fun i => ?_, fun i => ?_⟩
  · cases h with
    | calm h => rw [State.node_congr h.kept.1]
    | node new own =>
      rw [State.node_setNode]
      split
      next here => rw [← here.1, own]; rfl
      next => rfl
    | point new own => rw [State.node_congr (changePoint_kept s _ _ _).nodes]
    | position new own => rfl
  · cases h with
    | calm h => rw [State.point_congr h.kept.2.1]
    | node new own => rfl
    | point new own =>
      rw [point_changePoint_of_some own]
      split
      next here => rw [here, own]; rfl
      next => rfl
    | position new own => rfl
  · cases h with
    | calm h => rw [State.position_congr h.kept.2.2.1]
    | node new own => rfl
    | point new own => rw [State.position_congr (changePoint_kept s _ _ _).positions]
    | position new own =>
      rw [State.position_setPosition]
      split
      next here => rw [← here.1, own]; rfl
      next => rfl

/-! An entry beyond its table is not in use, and an index beyond it has no record. -/

section
variable (t : Tables) (s : State) {i : Nat}

theorem nodeUsed_beyond (h : ¬i < 48) : t.nodeUsed i = false :=
  congrArg (fun e : Option NodeEntry => markerSet (e.getD .empty).inUse) (Vector.getElem?_eq_none (Nat.not_lt.1 h))

theorem channelUsed_beyond (h : ¬i < 96) : t.channelUsed i = false :=
  congrArg (fun e : Option ChannelEntry => markerSet (e.getD .empty).inUse) (Vector.getElem?_eq_none (Nat.not_lt.1 h))

theorem pointUsed_beyond (h : ¬i < 24) : t.pointUsed i = false :=
  congrArg (fun e : Option PointEntry => markerSet (e.getD .empty).inUse) (Vector.getElem?_eq_none (Nat.not_lt.1 h))

theorem breakerUsed_beyond (h : ¬i < 24) : t.breakerUsed i = false :=
  congrArg (fun e : Option BreakerEntry => markerSet (e.getD .empty).inUse) (Vector.getElem?_eq_none (Nat.not_lt.1 h))

theorem node_beyond (h : ¬i < 48) : s.node i = none :=
  congrArg Option.join (Vector.getElem?_eq_none (Nat.not_lt.1 h))

theorem channel_beyond (h : ¬i < 96) : s.channel i = none :=
  congrArg Option.join (Vector.getElem?_eq_none (Nat.not_lt.1 h))

theorem point_beyond (h : ¬i < 24) : s.point i = none :=
  congrArg Option.join (Vector.getElem?_eq_none (Nat.not_lt.1 h))

theorem position_beyond (h : ¬i < 24) : s.position i = none :=
  congrArg Option.join (Vector.getElem?_eq_none (Nat.not_lt.1 h))

end

/-- Records match the tables when they do at the indices of the tables. -/
theorem recordsMatch_of {s : State} (nodes : ∀ i, i < 48 → (s.node i).isSome = s.tables.nodeUsed i)
    (channels : ∀ i, i < 96 → (s.channel i).isSome = s.tables.channelUsed i)
    (points : ∀ i, i < 24 → (s.point i).isSome = s.tables.pointUsed i)
    (positions : ∀ i, i < 24 → (s.position i).isSome = s.tables.breakerUsed i) : RecordsMatchTables s := by
  refine ⟨fun i => ?_, fun i => ?_, fun i => ?_, fun i => ?_⟩
  · by_cases h : i < 48
    · exact nodes i h
    · rw [node_beyond s h, nodeUsed_beyond _ h]; rfl
  · by_cases h : i < 96
    · exact channels i h
    · rw [channel_beyond s h, channelUsed_beyond _ h]; rfl
  · by_cases h : i < 24
    · exact points i h
    · rw [point_beyond s h, pointUsed_beyond _ h]; rfl
  · by_cases h : i < 24
    · exact positions i h
    · rw [position_beyond s h, breakerUsed_beyond _ h]; rfl

theorem isSome_if_used {α : Type} (used : Bool) (x : α) : (if used = true then some x else none).isSome = used := by
  cases used <;> rfl

/-- After a reset records stand for the in-use entries of the set they were made from. -/
theorem Fresh.match {t : State} (fresh : Fresh t.tables t) : RecordsMatchTables t := by
  obtain ⟨nodes, channels, points, positions⟩ := fresh.records
  refine recordsMatch_of (fun i h => ?_) (fun i h => ?_) (fun i h => ?_) fun i h => ?_
  · rw [nodes i h, isSome_if_used]
  · rw [channels i h, isSome_if_used]
  · rw [points i h, isSome_if_used]
  · rw [positions i h, isSome_if_used]

/-- A record is carried over from an entry that was in use to one that is, and is made for any other entry in use. -/
theorem isSome_carried {α : Type} {kept : Bool} {x : Option α} {used : Bool} {y : α}
    (h : kept = true → x.isSome = true ∧ used = true) :
    (if kept = true then x else if used = true then some y else none).isSome = used := by
  split
  next k =>
    obtain ⟨stands, inUse⟩ := h k
    rw [stands, inUse]
  next => exact isSome_if_used used y

/-- An activation carries records over between entries in use in both sets, and makes fresh ones for the others (R41, R65, R78, R130). -/
theorem newTables_match {s : State} (h : RecordsMatchTables s) : RecordsMatchTables s.newTables := by
  obtain ⟨nodes, channels, points, positions⟩ := h
  obtain ⟨agent, -⟩ := newTables_values s
  have tables : s.newTables.tables = s.agent.shadow := congrArg Agent.active agent
  refine recordsMatch_of (fun i h => ?_) (fun i h => ?_) (fun i h => ?_) fun i h => ?_ <;> rw [tables]
  · rw [newTables_node s h, isSome_carried fun kept => ?_]
    obtain ⟨old, new, -⟩ := (nodeKept_iff _ _ i).1 kept
    exact ⟨(nodes i).trans old, new⟩
  · rw [newTables_channel s h, isSome_carried fun kept => ?_]
    obtain ⟨old, new, -⟩ := (channelUnchanged_iff _ _ i).1 (Bool.and_eq_true_iff.1 kept).1
    exact ⟨(channels i).trans old, new⟩
  · rw [newTables_point s h, isSome_carried fun kept => ?_]
    obtain ⟨old, new, -⟩ := (pointUnchanged_iff _ _ i).1 (Bool.and_eq_true_iff.1 kept).1
    exact ⟨(points i).trans old, new⟩
  · rw [newTables_position s h, isSome_carried fun kept => ?_]
    obtain ⟨old, new, -⟩ := (breakerKept_iff _ _ i).1 kept
    exact ⟨(positions i).trans old, new⟩

theorem recordsMatch_congr {s t : State} (nodes : ∀ i, (t.node i).isSome = (s.node i).isSome)
    (channels : ∀ i, (t.channel i).isSome = (s.channel i).isSome) (points : ∀ i, (t.point i).isSome = (s.point i).isSome)
    (positions : ∀ i, (t.position i).isSome = (s.position i).isSome) (active : t.agent.active = s.agent.active)
    (h : RecordsMatchTables s) : RecordsMatchTables t := by
  obtain ⟨h1, h2, h3, h4⟩ := h
  unfold RecordsMatchTables
  rw [State.tables_congr active]
  exact ⟨fun i => (nodes i).trans (h1 i), fun i => (channels i).trans (h2 i), fun i => (points i).trans (h3 i),
    fun i => (positions i).trans (h4 i)⟩

/-! ## The view -/

theorem sectionRec_known {s : State} {i : Nat} (h : (s.sectionRec i).state ≠ .inactive) : i < 16 := by
  by_contra beyond
  rw [sectionRec_outside s beyond] at h
  exact h rfl

/-- A report that reaches a section leaves the view, the tables and the flags alone (R83, R84). -/
theorem reportTo_inputs (s : State) (i : Nat) (c : Cause) : SameInputs s (s.reportTo i c) := by
  unfold State.reportTo
  split
  next acts =>
    have known : i < 16 := sectionRec_known (by rcases acts with e | e <;> rw [e] <;> exact nofun)
    exact (evaluate_becomes s known c).inputs
  next => exact .refl s

theorem reportChannel_inputs (s : State) (c : Nat) (v : ChannelView) : SameInputs (s.setChannelView c v) (s.reportChannel c v) := by
  unfold State.reportChannel
  dsimp only
  split
  · exact reportTo_inputs _ _ _
  · exact .refl _

theorem reportPoint_inputs (s : State) (p : Nat) (v : PointView) : SameInputs (s.setPointView p v) (s.reportPoint p v) := by
  refine keeps_foldl SameInputs.refl SameInputs.trans (fun u i => ?_) _ _
  split
  · exact reportTo_inputs u i _
  · exact .refl u

/-- The view stands. -/
structure SameViews (s t : State) : Prop where
  channelViews : t.sections.channelViews = s.sections.channelViews
  pointViews : t.sections.pointViews = s.sections.pointViews

theorem SameViews.refl (s : State) : SameViews s s := ⟨rfl, rfl⟩
theorem SameInputs.views {s t : State} (h : SameInputs s t) : SameViews s t := ⟨h.channelViews, h.pointViews⟩

theorem SameViews.trans {s t u : State} (h : SameViews s t) (k : SameViews t u) : SameViews s u :=
  ⟨k.channelViews.trans h.channelViews, k.pointViews.trans h.pointViews⟩

theorem setSection_views (s : State) (i : Nat) (r : SectionRec) : SameViews s (s.setSection i r) := ⟨rfl, rfl⟩
theorem record_views (s : State) (b : RecordBody) : SameViews s (s.record b) := ⟨rfl, rfl⟩

/-- An event of a section leaves the view alone. -/
theorem SectionEvent.views {s t : State} (h : SectionEvent s t) : SameViews s t := by
  have onSection : ∀ {i : Nat} {x : State × Result}, (i < 16 → SameViews s x.1) → SameViews s (s.onSection i x).1 := fun {i x} h => by
    unfold State.onSection State.sectionCheck
    by_cases unconfigured : s.agent.mode = .unconfigured
    · rw [if_pos unconfigured]
      exact .refl s
    · rw [if_neg unconfigured]
      by_cases known : i < 16
      · rw [if_neg (by simp only [Config.sectionCount]; omega)]
        exact h known
      · rw [if_pos (by simp only [Config.sectionCount]; omega)]
        exact .refl s
  cases h with
  | persistence i =>
    unfold State.persistenceExpiry
    dsimp only
    split
    · split
      · exact setSection_views s i _
      · exact (setSection_views s i _).trans (record_views _ _)
    · exact .refl s
  | blocked i =>
    refine onSection fun _ => ?_
    dsimp only
    split
    · exact setSection_views s i _
    · exact (setSection_views s i _).trans (record_views _ _)
  | unblocked i =>
    refine onSection fun known => ?_
    have evaluated : ∀ u : State, SameViews u (u.evaluate i .other) := fun u => (evaluate_becomes u known .other).inputs.views
    dsimp only
    split <;> split
    · exact ((setSection_views s i _).trans (record_views _ _)).trans (evaluated _)
    · exact (setSection_views s i _).trans (evaluated _)
    · exact (setSection_views s i _).trans (record_views _ _)
    · exact setSection_views s i _
  | maintained i on =>
    refine onSection fun _ => ?_
    dsimp only
    split
    · exact .refl s
    · exact ((setSection_views s i _).trans (record_views _ _)).trans (reportTo_inputs _ i _).views
  | released i =>
    refine onSection fun _ => ?_
    split
    · have removed := (removeSection_kept s i).sections
      have gone : SameViews s (s.removeSection i) := ⟨congrArg _ removed, congrArg _ removed⟩
      exact (gone.trans (setSection_views _ i _)).trans (record_views _ _)
    · exact .refl s

/-- What the view holds of a channel after a change of its record: what the record holds, once a difference is reported (R51). -/
theorem channelView_changeChannel {s : State} {c : Nat} {old : ChannelRec} (own : s.channel c = some old) (new : ChannelRec) (j : Nat) :
    (s.changeChannel c old new).channelView j =
      if j = c ∧ old.view ≠ new.view then some new.view else s.channelView j := by
  unfold State.changeChannel
  dsimp only
  split
  next same => rw [if_neg fun h => h.2 same]; rfl
  next differ =>
    rw [State.channelView_congr (reportChannel_inputs _ c new.view).channelViews, State.channelView_setChannelView]
    by_cases here : j = c
    · subst here
      rw [if_pos ⟨rfl, channel_lt own⟩, if_pos ⟨rfl, differ⟩]
    · rw [if_neg fun h => here h.1.symm, if_neg fun h => here h.1]
      rfl

theorem pointView_changeChannel (s : State) (c : Nat) (old new : ChannelRec) (j : Nat) :
    (s.changeChannel c old new).pointView j = s.pointView j := by
  unfold State.changeChannel
  dsimp only
  split
  · rfl
  · exact State.pointView_congr (reportChannel_inputs _ c new.view).pointViews j

/-- What the view holds of a point after a change of its record (R75). -/
theorem pointView_changePoint {s : State} {p : Nat} {old : PointRec} (own : s.point p = some old) (new : PointRec) (j : Nat) :
    (s.changePoint p old new).pointView j = if j = p ∧ old.view ≠ new.view then some new.view else s.pointView j := by
  unfold State.changePoint
  dsimp only
  split
  next same => rw [if_neg fun h => h.2 same]; rfl
  next differ =>
    rw [State.pointView_congr (reportPoint_inputs _ p new.view).pointViews, State.pointView_setPointView]
    by_cases here : j = p
    · subst here
      rw [if_pos ⟨rfl, point_lt own⟩, if_pos ⟨rfl, differ⟩]
    · rw [if_neg fun h => here h.1.symm, if_neg fun h => here h.1]
      rfl

theorem channelView_changePoint (s : State) (p : Nat) (old new : PointRec) (j : Nat) :
    (s.changePoint p old new).channelView j = s.channelView j := by
  unfold State.changePoint
  dsimp only
  split
  · rfl
  · exact State.channelView_congr (reportPoint_inputs _ p new.view).channelViews j

theorem viewCurrent_congr {s t : State} (channels : t.channels = s.channels) (points : t.points = s.points) (views : SameViews s t)
    (h : ViewCurrent s) : ViewCurrent t := by
  obtain ⟨channel, point⟩ := h
  exact ⟨fun i => by rw [State.channelView_congr views.channelViews, State.channel_congr channels]; exact channel i,
    fun i => by rw [State.pointView_congr views.pointViews, State.point_congr points]; exact point i⟩

/-- A view that holds a record's old view, and the new one once it differs, holds the new one. -/
theorem view_followed {α β : Type} [DecidableEq α] {v : Option α} {f : β → α} {old new : β} {j c : Nat} {r : Option β}
    (was : v = r.map f) (own : j = c → r = some old) :
    (if j = c ∧ f old ≠ f new then some (f new) else v) = (if j = c then some new else r).map f := by
  by_cases here : j = c
  · rw [if_pos here, was, own here]
    by_cases same : f old = f new
    · rw [if_neg fun h => h.2 same, Option.map_some, same]; rfl
    · rw [if_pos ⟨here, same⟩]; rfl
  · rw [if_neg here, if_neg fun h => here h.1, was]

/-- Every change keeps the view current (R51, R75). -/
theorem Turn.viewCurrent {s t : State} (h : Turn s t) (current : ViewCurrent s) : ViewCurrent t := by
  obtain ⟨channel, point⟩ := id current
  cases h with
  | calm h =>
    cases h with
    | apart h => exact viewCurrent_congr h.channels h.points ⟨congrArg _ h.sections, congrArg _ h.sections⟩ current
    | @channel c old new own how =>
      refine ⟨fun j => ?_, fun j => ?_⟩
      · rw [channelView_changeChannel own, channel_changeChannel_of_some own]
        exact view_followed (channel j) fun here => by rw [here, own]
      · rw [pointView_changeChannel, State.point_congr (changeChannel_kept s c old new).points]
        exact point j
    | event h =>
      have channels : t.channels = s.channels := by
        cases h with
        | persistence i => exact (persistenceExpiry_kept s i).channels
        | blocked i => exact (setBlockOn_kept s i).channels
        | unblocked i => exact (setBlockOff_kept s i).channels
        | maintained i on => exact (setMaintenance_kept s i on).channels
        | released i => exact (release_kept s i).channels
      exact viewCurrent_congr channels (Calm.event h).kept.2.1 h.views current
  | node new own => exact viewCurrent_congr rfl rfl ⟨rfl, rfl⟩ current
  | @point p old new own =>
    refine ⟨fun j => ?_, fun j => ?_⟩
    · rw [channelView_changePoint, State.channel_congr (changePoint_kept s p old new).channels]
      exact channel j
    · rw [pointView_changePoint own, point_changePoint_of_some own]
      exact view_followed (point j) fun here => by rw [here, own]
  | position new own => exact viewCurrent_congr rfl rfl ⟨rfl, rfl⟩ current

/-- A view that has been refreshed is current (R81, R82, R102). -/
theorem refreshView_current (s : State) : ViewCurrent s.refreshView := by
  obtain ⟨-, channels, points, -⟩ := refreshView_same s
  have channelViews : s.refreshView.sections.channelViews = s.viewOfChannels := by simp only [State.refreshView]
  have pointViews : s.refreshView.sections.pointViews = s.viewOfPoints := by simp only [State.refreshView]
  refine ⟨fun i => ?_, fun i => ?_⟩
  · rw [State.channel_congr channels, State.channelView, channelViews]
    by_cases known : i < 96
    · exact join_ofFn known
    · rw [channel_beyond s known, Vector.getElem?_eq_none (Nat.not_lt.1 known)]; rfl
  · rw [State.point_congr points, State.pointView, pointViews]
    by_cases known : i < 24
    · exact join_ofFn known
    · rw [point_beyond s known, Vector.getElem?_eq_none (Nat.not_lt.1 known)]; rfl

theorem freshRecords_current (s : State) : ViewCurrent s.freshRecords := refreshView_current _

theorem softBase_current (s : State) : ViewCurrent s.softBase :=
  viewCurrent_congr (s := s.softStart.freshRecords) rfl rfl ⟨rfl, rfl⟩ (freshRecords_current _)

theorem hardBase_current (s : State) (h : HardReset) (mv : Nat) : ViewCurrent (s.hardBase h mv) := by
  rw [hardBase_eq]
  exact viewCurrent_congr (s := (s.hardStart h mv).freshRecords) rfl rfl ⟨rfl, rfl⟩ (freshRecords_current _)

/-- An activation refreshes the view before the sections are recomputed, and no recomputation touches it (R102). -/
theorem swap_current (s : State) : ViewCurrent s.swap := by
  have keeps := recomputeSections_kept s.newTables.loopActivation
  obtain ⟨inputs, -⟩ := recomputeSections_outcome s.newTables.loopActivation
  have swapped : ViewCurrent s.swapped := viewCurrent_congr keeps.channels keeps.points inputs.views (refreshView_current _)
  obtain ⟨-, channels, points, -, sections, -⟩ := beginStoreWrite_same s.swapped
  rw [swap_swapped]
  exact viewCurrent_congr channels points ⟨by rw [sections], by rw [sections]⟩ swapped

/-! ## The invariant -/

/-- Records stand for the in-use entries, and the view holds what they hold. -/
structure MatchedAndViewed (s : State) : Prop where
  matched : RecordsMatchTables s
  viewed : ViewCurrent s

theorem matchedAndViewed_kept : KeptByTurns MatchedAndViewed where
  turn := fun {s t} turn ⟨matched, viewed⟩ => by
    obtain ⟨nodes, channels, points, positions⟩ := turn.stands
    exact ⟨recordsMatch_congr nodes channels points positions turn.tables.1 matched, turn.viewCurrent viewed⟩
  swap := fun {s} _ ⟨matched, _⟩ => by
    have keeps := swap_keeps s
    exact ⟨recordsMatch_congr (fun i => by rw [State.node_congr keeps.nodes]) (fun i => by rw [State.channel_congr keeps.channels])
      (fun i => by rw [State.point_congr keeps.points]) (fun i => by rw [State.position_congr keeps.positions]) keeps.active
      (newTables_match matched), swap_current s⟩
  softReset := fun {s} _ => ⟨Fresh.match (softBase_fresh s), softBase_current s⟩
  ends := fun {s} h mv _ => by
    obtain ⟨-, -, agent, -⟩ := hardBase_values s h mv
    have fresh := hardBase_fresh s h mv
    rw [← agent] at fresh
    exact ⟨Fresh.match fresh, hardBase_current s h mv⟩
  tick := fun {s} up ⟨matched, viewed⟩ => by
    obtain ⟨channels, points, positions, channelViews, pointViews, agent, -⟩ := tick_same s
    have nodes : ∀ i, (s.tick.node i).isSome = (s.node i).isSome := fun i => by
      by_cases known : i < 48
      · rw [node_ofFn (tick_nodes up) known, Option.isSome_map]
      · rw [node_beyond _ known, node_beyond _ known]
    exact ⟨recordsMatch_congr nodes (fun i => by rw [State.channel_congr channels]) (fun i => by rw [State.point_congr points])
      (fun i => by rw [State.position_congr positions]) (by rw [agent]) matched,
      viewCurrent_congr channels points ⟨channelViews, pointViews⟩ viewed⟩

/-- Settles O53: no change makes or removes a record, each is reported when the view does not hold it, and an activation and a reset make
records for the entries in use and refresh the view. -/
theorem stepKeepsRecordsAndView : Obligations.stepKeepsRecordsAndView := by
  unfold Obligations.stepKeepsRecordsAndView
  intro s t matched viewed step
  obtain ⟨matched', viewed'⟩ := matchedAndViewed_kept.step step ⟨matched, viewed⟩
  exact ⟨matched', viewed'⟩

end Sys2Proof.Machine
end

section
/-! SUPPORT. No trip is owed (R59, R86 to R88, R93): a change that can make a trip condition true, or light a section, is followed by the
evaluation of the sections that it can reach, and the trip decision of every other section stands. -/

namespace Sys2Proof.Machine

open Sys2Proof.Safety

/-! ## What a section's decision depends on (R83 to R86) -/

/-- A section may be in this state: ARMED without light, LIGHT with light, and in neither with its trip condition true (R88, R93). -/
def State.fits (s : State) (i : Nat) (state : SectionState) : Prop :=
  (state = .armed → s.tripCondition i = false ∧ s.someLit i = false) ∧
    (state = .light → s.tripCondition i = false ∧ s.someLit i = true)

theorem decisionsCurrent_iff (s : State) : DecisionsCurrent s ↔ ∀ i, i < 16 → s.fits i (s.sectionRec i).state := .rfl

theorem fits_still (s : State) (i : Nat) {state : SectionState} (armed : state ≠ .armed) (light : state ≠ .light) :
    s.fits i state := ⟨fun e => absurd e armed, fun e => absurd e light⟩

/-- The trip condition of a section and its light stand. -/
def SameDecision (s t : State) (i : Nat) : Prop := t.tripCondition i = s.tripCondition i ∧ t.someLit i = s.someLit i

theorem SameDecision.trans {s t u : State} {i : Nat} (h : SameDecision s t i) (k : SameDecision t u i) : SameDecision s u i :=
  ⟨k.1.trans h.1, k.2.trans h.2⟩

theorem SameDecision.fits {s t : State} {i : Nat} (h : SameDecision s t i) {state : SectionState} :
    t.fits i state ↔ s.fits i state := by
  unfold State.fits
  rw [h.1, h.2]

theorem SameInputs.decision {s t : State} (h : SameInputs s t) (i : Nat) : SameDecision s t i := ⟨h.tripCondition i, h.someLit i⟩

/-- A decision depends on the contributing channels that are LIT and eligible, on the flagged points and on the rule in force. -/
theorem sameDecision_of {s t : State} {i : Nat} (lit : t.litIn i = s.litIn i) (eligible : t.eligibleIn i = s.eligibleIn i)
    (flagged : t.lowestFlagged i = s.lowestFlagged i) (rule : t.rule i = s.rule i) : SameDecision s t i := by
  have someLit : t.someLit i = s.someLit i := by rw [State.someLit, State.lowestLit, lit]; rfl
  refine ⟨?_, someLit⟩
  simp only [State.tripCondition, State.lowestEligible, rule, eligible, flagged, someLit]

/-- A section's record has a part in a decision by the section's own maintenance flag alone (R85). -/
theorem setSection_decision (s : State) (i : Nat) (r : SectionRec) {j : Nat}
    (h : ((s.setSection i r).sectionRec j).maintenance = (s.sectionRec j).maintenance) : SameDecision s (s.setSection i r) j := by
  refine sameDecision_of rfl rfl rfl ?_
  unfold State.rule
  rw [h]
  rfl

/-- A channel's view has no part in the decision of a section that its entry does not name (R83). -/
theorem setChannelView_decision (s : State) {c j : Nat} (v : ChannelView) (h : (s.tables.channel c).sectOf ≠ some j) :
    SameDecision s (s.setChannelView c v) j := by
  have viewed : ∀ c', s.channelOf j c' = true → (s.setChannelView c v).channelView c' = s.channelView c' := fun c' of => by
    rw [State.channelView_setChannelView, if_neg]
    rintro ⟨rfl, -⟩
    unfold State.channelOf at of
    simp only [Bool.and_eq_true, decide_eq_true_eq] at of
    exact h of.2
  have contributing : ∀ (p : ChannelView → Bool) c',
      ((s.setChannelView c v).contributes j c' && (s.setChannelView c v).viewed c' p) = (s.contributes j c' && s.viewed c' p) :=
    fun p c' => by
      have of : (s.setChannelView c v).channelOf j c' = s.channelOf j c' := rfl
      unfold State.contributes State.viewed
      rw [of]
      cases named : s.channelOf j c' with
      | false => rfl
      | true => rw [viewed c' named]
  exact sameDecision_of (funext (contributing _)) (funext (contributing _)) rfl rfl

/-- A point's view has no part in the decision of a section whose confirm list does not hold the point (R84, R85). -/
theorem setPointView_decision (s : State) {p j : Nat} (v : PointView) (h : (s.sectionEntry j).confirmList.contains p = false) :
    SameDecision s (s.setPointView p v) j := by
  have listed : ∀ q ∈ (s.sectionEntry j).confirmList, (s.setPointView p v).pointView q = s.pointView q := fun q mem => by
    rw [State.pointView_setPointView, if_neg]
    rintro ⟨rfl, -⟩
    rw [List.contains_eq_mem, decide_eq_false_iff_not] at h
    exact h mem
  have entry : (s.setPointView p v).sectionEntry j = s.sectionEntry j := rfl
  refine sameDecision_of rfl rfl ?_ ?_
  · unfold State.lowestFlagged
    rw [entry]
    congr 1
    funext q
    cases mem : (s.sectionEntry j).confirmList.contains q with
    | false => rfl
    | true =>
      rw [List.contains_eq_mem, decide_eq_true_eq] at mem
      unfold State.flagged
      rw [listed q mem]
  · have data : (s.sectionEntry j).confirmList.any (s.setPointView p v).pointHasData =
        (s.sectionEntry j).confirmList.any s.pointHasData := by
      rw [Bool.eq_iff_iff, List.any_eq_true, List.any_eq_true]
      refine exists_congr fun q => and_congr_right fun mem => ?_
      unfold State.pointHasData
      rw [listed q mem]
    have record : (s.setPointView p v).sectionRec j = s.sectionRec j := rfl
    unfold State.rule
    rw [entry, record, data]

/-- A section without light has a false trip condition, when only LIT channels are eligible (R59, R86). -/
theorem tripCondition_unlit {s : State} (h : EligibleIsLit s) {i : Nat} (dark : s.someLit i = false) : s.tripCondition i = false := by
  have none_lit : ∀ c ∈ List.range 96, ¬s.litIn i c = true := by
    unfold State.someLit State.lowestLit at dark
    rwa [Option.isSome_eq_false_iff, Option.isNone_iff_eq_none, List.find?_eq_none] at dark
  have none_eligible : s.lowestEligible i = none := by
    refine List.find?_eq_none.2 fun c mem eligible => none_lit c mem ?_
    unfold State.eligibleIn State.viewed at eligible
    unfold State.litIn State.viewed
    rw [Bool.and_eq_true] at eligible ⊢
    obtain ⟨contributes, eligible⟩ := eligible
    refine ⟨contributes, ?_⟩
    cases view : s.channelView c with
    | none => rw [view] at eligible; cases eligible
    | some v =>
      rw [view] at eligible
      exact decide_eq_true (h.2 c v view eligible)
  unfold State.tripCondition
  split
  · rw [none_eligible]; rfl
  · rw [dark]; rfl
  · rfl

/-! ## One section settled -/

/-- The decisions and states of every section but one stand. -/
structure OthersStand (s t : State) (i : Nat) : Prop where
  decision : ∀ j, j ≠ i → SameDecision s t j
  state : ∀ j, j ≠ i → (t.sectionRec j).state = (s.sectionRec j).state

theorem OthersStand.trans {s t u : State} {i : Nat} (h : OthersStand s t i) (k : OthersStand t u i) : OthersStand s u i :=
  ⟨fun j other => (h.decision j other).trans (k.decision j other), fun j other => (k.state j other).trans (h.state j other)⟩

theorem SameInputs.others {s t : State} (h : SameInputs s t) (records : ∀ j, t.sectionRec j = s.sectionRec j) (i : Nat) :
    OthersStand s t i := ⟨fun j _ => h.decision j, fun j _ => by rw [records]⟩

theorem OthersStand.refl (s : State) (i : Nat) : OthersStand s s i := (SameInputs.refl s).others (fun _ => rfl) i

theorem Becomes.othersStand {s t : State} {i : Nat} {state : SectionState} (h : Becomes s t i state) : OthersStand s t i :=
  ⟨fun j _ => h.inputs.decision j, fun j other => by rw [h.others j other]⟩

theorem setSection_others (s : State) (i : Nat) (r : SectionRec) : OthersStand s (s.setSection i r) i := by
  have record : ∀ j, j ≠ i → (s.setSection i r).sectionRec j = s.sectionRec j := fun j other => by
    rw [State.sectionRec_setSection, if_neg fun h => other h.1.symm]
  exact ⟨fun j other => setSection_decision s i r (by rw [record j other]), fun j other => by rw [record j other]⟩

theorem record_others (s : State) (b : RecordBody) (i : Nat) : OthersStand s (s.record b) i :=
  (SameInputs.of_sections (s := s) (t := s.record b) rfl rfl rfl).others (fun _ => rfl) i

/-- With the others standing and its own state fitting, no section owes a trip. -/
theorem OthersStand.decisions {s t : State} {i : Nat} (h : OthersStand s t i) (own : i < 16 → t.fits i (t.sectionRec i).state)
    (current : DecisionsCurrent s) : DecisionsCurrent t := by
  rw [decisionsCurrent_iff] at current ⊢
  intro j known
  by_cases here : j = i
  · subst here
    exact own known
  · rw [(h.decision j here).fits, h.state j here]
    exact current j known

/-- A section that has been evaluated fits its state (R88). -/
theorem evaluate_fits (s : State) {i : Nat} (known : i < 16) (c : Cause) :
    (s.evaluate i c).fits i ((s.evaluate i c).sectionRec i).state := by
  have becomes := evaluate_becomes s known c
  rw [becomes.state known, (becomes.inputs.decision i).fits]
  split
  · exact fits_still s i nofun nofun
  next untripped =>
    rw [Bool.not_eq_true] at untripped
    split
    next lit => exact ⟨nofun, fun _ => ⟨untripped, lit⟩⟩
    next dark => exact ⟨fun _ => ⟨untripped, by rwa [Bool.not_eq_true] at dark⟩, nofun⟩

theorem evaluate_active (s : State) {i : Nat} (known : i < 16) (c : Cause) : ((s.evaluate i c).sectionRec i).state ≠ .inactive := by
  rw [(evaluate_becomes s known c).state known]
  split
  · exact nofun
  · split <;> exact nofun

/-- A section that a report reaches fits its state, and the others stand (R83, R84, R88). -/
theorem reportTo_settles (s : State) (i : Nat) (c : Cause) : OthersStand s (s.reportTo i c) i ∧
    (s.reportTo i c).fits i ((s.reportTo i c).sectionRec i).state := by
  unfold State.reportTo
  split
  next acts =>
    have known : i < 16 := sectionRec_known (by rcases acts with e | e <;> rw [e] <;> exact nofun)
    exact ⟨(evaluate_becomes s known c).othersStand, evaluate_fits s known c⟩
  next rests => exact ⟨.refl s i, fits_still s i (fun e => rests (.inl e)) fun e => rests (.inr e)⟩

/-! ## Which sections are INACTIVE (R87) -/

/-- The same sections are INACTIVE, under the same tables and mode. -/
structure SameInactive (s t : State) : Prop where
  active : t.agent.active = s.agent.active
  mode : t.agent.mode = s.agent.mode
  state : ∀ i, (t.sectionRec i).state = .inactive ↔ (s.sectionRec i).state = .inactive

theorem SameInactive.refl (s : State) : SameInactive s s := ⟨rfl, rfl, fun _ => .rfl⟩

theorem SameInactive.trans {s t u : State} (h : SameInactive s t) (k : SameInactive t u) : SameInactive s u :=
  ⟨k.active.trans h.active, k.mode.trans h.mode, fun i => (k.state i).trans (h.state i)⟩

theorem SameInactive.tabled {s t : State} (h : SameInactive s t) (i : InactiveAsTabled s) : InactiveAsTabled t := fun j known => by
  rw [h.state, sectionInactive_congr h.mode h.active]
  exact i j known

theorem SameInactive.of_records {s t : State} (active : t.agent.active = s.agent.active) (mode : t.agent.mode = s.agent.mode)
    (records : ∀ i, (t.sectionRec i).state = (s.sectionRec i).state) : SameInactive s t :=
  ⟨active, mode, fun i => by rw [records]⟩

theorem Becomes.sameInactive {s t : State} {i : Nat} {state : SectionState} (h : Becomes s t i state)
    (own : state = .inactive ↔ (s.sectionRec i).state = .inactive) : SameInactive s t := by
  refine ⟨h.inputs.active, h.inputs.mode, fun j => ?_⟩
  by_cases here : j = i
  · subst here
    by_cases known : j < 16
    · rw [h.state known, own]
    · rw [sectionRec_outside t known, sectionRec_outside s known]
  · rw [h.others j here]

theorem setSection_sameInactive (s : State) (i : Nat) {r : SectionRec}
    (own : r.state = .inactive ↔ (s.sectionRec i).state = .inactive) : SameInactive s (s.setSection i r) := by
  refine ⟨rfl, rfl, fun j => ?_⟩
  rw [State.sectionRec_setSection]
  split
  next here => rw [own, here.1]
  next => rfl

theorem record_sameInactive (s : State) (b : RecordBody) : SameInactive s (s.record b) := .of_records rfl rfl fun _ => rfl

/-- An evaluation neither makes a section INACTIVE nor leaves one so, and acts on none that is. -/
theorem evaluate_sameInactive {s : State} {i : Nat} (h : (s.sectionRec i).state ≠ .inactive) (c : Cause) :
    SameInactive s (s.evaluate i c) := by
  have known := sectionRec_known h
  have becomes := evaluate_becomes s known c
  have active := evaluate_active s known c
  rw [becomes.state known] at active
  exact becomes.sameInactive ⟨fun e => absurd e active, fun e => absurd e h⟩

theorem reportTo_sameInactive (s : State) (i : Nat) (c : Cause) : SameInactive s (s.reportTo i c) := by
  unfold State.reportTo
  split
  next acts => exact evaluate_sameInactive (by rcases acts with e | e <;> rw [e] <;> exact nofun) c
  next => exact .refl s

/-! ## The reports of a channel and of a point (R83, R84) -/

theorem changeChannel_decisions (s : State) (c : Nat) (old new : ChannelRec) (current : DecisionsCurrent s) :
    DecisionsCurrent (s.changeChannel c old new) := by
  have set : DecisionsCurrent (s.setChannel c new) := current
  unfold State.changeChannel
  dsimp only
  split
  · exact set
  · unfold State.reportChannel
    dsimp only
    split
    next i names =>
      obtain ⟨others, own⟩ := reportTo_settles ((s.setChannel c new).setChannelView c new.view) i (.channel c)
      have viewed : OthersStand (s.setChannel c new) ((s.setChannel c new).setChannelView c new.view) i :=
        ⟨fun j other => setChannelView_decision _ new.view fun e => other (Option.some.inj (e.symm.trans names)), fun _ _ => rfl⟩
      exact (viewed.trans others).decisions (fun _ => own) set
    next names =>
      have unnamed : ∀ j, (s.tables.channel c).sectOf ≠ some j := fun j e => absurd (e.symm.trans names) nofun
      exact fun j known => ((setChannelView_decision (s.setChannel c new) new.view (unnamed j)).fits).2 (set j known)

theorem changeChannel_sameInactive (s : State) (c : Nat) (old new : ChannelRec) :
    SameInactive s (s.changeChannel c old new) := by
  have set : ∀ v, SameInactive s ((s.setChannel c new).setChannelView c v) := fun v => .of_records rfl rfl fun _ => rfl
  unfold State.changeChannel
  dsimp only
  split
  · exact .of_records rfl rfl fun _ => rfl
  · unfold State.reportChannel
    dsimp only
    split
    · exact (set _).trans (reportTo_sameInactive _ _ _)
    · exact set _

/-- Of operations on the entries of a list, each of which leaves what holds at the others, the one on an entry makes its claim hold. -/
theorem foldl_settles {f : State → Nat → State} {R : State → Prop} {P : State → Nat → Prop} (stays : ∀ u i, R u → R (f u i))
    {j : Nat} (l : List Nat) (keeps : ∀ u i, i ∈ l → P u j → P (f u i) j) : ∀ s, R s →
    P s j ∨ (j ∈ l ∧ ∀ u, R u → P (f u j) j) → P (l.foldl f s) j := by
  induction l with
  | nil => exact fun s _ h => h.resolve_right fun ⟨mem, _⟩ => absurd mem List.not_mem_nil
  | cons i l ih =>
    intro s stands h
    refine ih (fun u k mem => keeps u k (List.mem_cons_of_mem i mem)) (f s i) (stays s i stands) ?_
    rcases h with holds | ⟨mem, own⟩
    · exact .inl (keeps s i List.mem_cons_self holds)
    · by_cases here : j = i
      · subst here
        exact .inl (own s stands)
      · exact .inr ⟨(List.mem_cons.1 mem).resolve_left here, own⟩

theorem reportTo_keepsFits (s : State) (i : Nat) (c : Cause) (j : Nat) (h : s.fits j (s.sectionRec j).state) :
    (s.reportTo i c).fits j ((s.reportTo i c).sectionRec j).state := by
  obtain ⟨others, own⟩ := reportTo_settles s i c
  by_cases here : j = i
  · subst here
    exact own
  · rwa [(others.decision j here).fits, others.state j here]

/-- Every section whose confirm list holds the point is evaluated, and no other decision depends on it (R84). A section that is not in use
is INACTIVE (R87). -/
theorem changePoint_decisions (s : State) (p : Nat) (old new : PointRec) (tabled : InactiveAsTabled s) (current : DecisionsCurrent s) :
    DecisionsCurrent (s.changePoint p old new) := by
  set u := s.setPoint p new with hu
  have set : DecisionsCurrent u := current
  unfold State.changePoint
  dsimp only
  split
  · exact set
  · intro j known
    refine foldl_settles (R := fun v => v.tables = s.tables) (P := fun v i => v.fits i (v.sectionRec i).state)
      (fun v i same => ?_) (List.range 16) (fun v i _ fits => ?_) (u.setPointView p new.view) rfl ?_
    · split
      · exact (reportTo_kept v i _).active.trans same
      · exact same
    · split
      · exact reportTo_keepsFits v i _ j fits
      · exact fits
    · by_cases listed : (s.sectionEntry j).confirmList.contains p = true
      · cases used : markerSet (s.sectionEntry j).inUse with
        | true =>
          refine .inr ⟨List.mem_range.2 known, fun v same => ?_⟩
          have entry : v.sectionEntry j = s.sectionEntry j := congrArg (fun t => t.sectionAt j) same
          rw [entry, used, listed]
          exact (reportTo_settles v j (.point p)).2
        | false =>
          have inactive : (s.sectionRec j).state = .inactive := (tabled j known).2 (by unfold State.sectionInactive; simp [used])
          exact .inl (fits_still _ j (by change (s.sectionRec j).state ≠ _; rw [inactive]; exact nofun)
            (by change (s.sectionRec j).state ≠ _; rw [inactive]; exact nofun))
      · rw [Bool.not_eq_true] at listed
        exact .inl (((setPointView_decision u new.view listed).fits).2 (set j known))

theorem changePoint_sameInactive (s : State) (p : Nat) (old new : PointRec) : SameInactive s (s.changePoint p old new) := by
  unfold State.changePoint
  dsimp only
  split
  · exact .of_records rfl rfl fun _ => rfl
  · refine SameInactive.trans (t := (s.setPoint p new).setPointView p new.view) (.of_records rfl rfl fun _ => rfl)
      (keeps_foldl SameInactive.refl SameInactive.trans (fun v i => ?_) _ _)
    split
    · exact reportTo_sameInactive v i _
    · exact .refl v

/-! ## Eligibility (R59) -/

/-- What the Light Qualifier makes of a record is eligible only when it is LIT. -/
theorem Reworked.eligible {e : ChannelEntry} {r r' : ChannelRec} (h : Reworked e r r') (lit : r.eligible = true → r.light = .lit) :
    r'.eligible = true → r'.light = .lit := by
  have computed : ∀ light flicker integ qualify, eligibleOf light flicker integ qualify = true → light = .lit :=
    fun light flicker integ qualify eligible => by
      unfold eligibleOf at eligible
      exact of_decide_eq_true (Bool.and_eq_true_iff.1 eligible).1
  cases h with
  | raw level => exact lit
  | sample x =>
    obtain ⟨-, -, -, -, -, -, -, -, eligible⟩ := process_fields e r x
    rw [eligible]
    exact computed _ _ _ _
  | noData => exact nofun
  | live => exact computed _ _ _ _
  | testing => exact lit
  | returned => exact lit
  | handedOver peak standing => exact lit

theorem eligibleIsLit_congr {s t : State} (channels : t.channels = s.channels)
    (views : ∀ i, t.channelView i = s.channelView i) (h : EligibleIsLit s) : EligibleIsLit t := by
  refine ⟨fun i r own => h.1 i r ?_, fun i v own => h.2 i v ?_⟩
  · rwa [State.channel_congr channels] at own
  · rwa [views] at own

/-- With the view current it is enough that the records are so. -/
theorem eligibleIsLit_of_view {s : State} (view : ViewCurrent s) (records : ∀ i r, s.channel i = some r → r.eligible = true → r.light = .lit) :
    EligibleIsLit s := by
  refine ⟨records, fun i v own => ?_⟩
  rw [view.1 i, Option.map_eq_some_iff] at own
  obtain ⟨r, own, rfl⟩ := own
  exact records i r own

theorem changeChannel_eligible {s : State} {c : Nat} {old new : ChannelRec} (own : s.channel c = some old)
    (how : Reworked (s.tables.channel c) old new) (h : EligibleIsLit s) : EligibleIsLit (s.changeChannel c old new) := by
  have reworked := how.eligible (h.1 c old own)
  refine ⟨fun i r is => ?_, fun i v is => ?_⟩
  · rw [channel_changeChannel_of_some own] at is
    split at is
    · cases is
      exact reworked
    · exact h.1 i r is
  · rw [channelView_changeChannel own] at is
    split at is
    · cases is
      exact reworked
    · exact h.2 i v is

/-! ## The events of a section (R94, R97 to R100) -/

/-- No trip is owed, only LIT channels are eligible, and a section is INACTIVE as R87 says. -/
structure NoTripOwed (s : State) : Prop where
  decisions : DecisionsCurrent s
  eligible : EligibleIsLit s
  inactive : InactiveAsTabled s

/-- A change beside the channels' records, the Section Evaluator, the tables and the mode. -/
theorem NoTripOwed.congr {s t : State} (h : NoTripOwed s) (channels : t.channels = s.channels) (sections : t.sections = s.sections)
    (active : t.agent.active = s.agent.active) (mode : t.agent.mode = s.agent.mode) : NoTripOwed t := by
  have records := State.sectionRec_congr (congrArg SectionEvaluator.records sections)
  refine ⟨fun i known => ?_, eligibleIsLit_congr channels (State.channelView_congr (congrArg _ sections)) h.eligible,
    (SameInactive.of_records active mode fun i => by rw [records]).tabled h.inactive⟩
  exact (((SameInputs.of_sections sections active mode).decision i).fits (state := (t.sectionRec i).state)).2
    (by rw [records]; exact h.decisions i known)

/-- One section's own event. -/
theorem NoTripOwed.ofSection {s t : State} {i : Nat} (h : NoTripOwed s) (others : OthersStand s t i)
    (own : i < 16 → t.fits i (t.sectionRec i).state) (channels : t.channels = s.channels) (views : SameViews s t)
    (inactive : SameInactive s t) : NoTripOwed t :=
  ⟨others.decisions own h.decisions, eligibleIsLit_congr channels (State.channelView_congr views.channelViews) h.eligible, inactive.tabled h.inactive⟩

theorem sectionRec_setSection_own (s : State) {i : Nat} (known : i < 16) (r : SectionRec) : (s.setSection i r).sectionRec i = r :=
  (State.sectionRec_setSection s i i r).trans (if_pos ⟨rfl, known⟩)

/-- A record of the section with the same maintenance flag leaves its decision (R85). -/
theorem setSection_decision_own (s : State) (i : Nat) {r : SectionRec} (h : r.maintenance = (s.sectionRec i).maintenance) :
    SameDecision s (s.setSection i r) i := by
  refine setSection_decision s i r ?_
  rw [State.sectionRec_setSection]
  split
  · exact h
  · rfl

/-- What an event of a section leaves of the other sections, of its own state, and of the sections that are INACTIVE. -/
structure EventSettles (s t : State) (i : Nat) : Prop where
  others : OthersStand s t i
  inactive : SameInactive s t
  own : NoTripOwed s → i < 16 → t.fits i (t.sectionRec i).state

theorem EventSettles.refl (s : State) (i : Nat) : EventSettles s s i :=
  ⟨.refl s i, .refl s, fun h known => h.decisions i known⟩

theorem EventSettles.record {s t : State} {i : Nat} (h : EventSettles s t i) (b : RecordBody) : EventSettles s (t.record b) i :=
  ⟨h.others.trans (record_others t b i), h.inactive.trans (record_sameInactive t b), h.own⟩

/-- A section's record is replaced by one of the same maintenance flag, in a state that fits. -/
theorem setSection_settles (s : State) (i : Nat) {r : SectionRec} (maintenance : r.maintenance = (s.sectionRec i).maintenance)
    (inactive : r.state = .inactive ↔ (s.sectionRec i).state = .inactive) (own : NoTripOwed s → i < 16 → s.fits i r.state) :
    EventSettles s (s.setSection i r) i := by
  refine ⟨setSection_others s i r, setSection_sameInactive s i inactive, fun h known => ?_⟩
  rw [sectionRec_setSection_own s known, (setSection_decision_own s i maintenance).fits]
  exact own h known

theorem persistenceExpiry_settles (s : State) (i : Nat) : EventSettles s (s.persistenceExpiry i) i := by
  have set : EventSettles s (s.setSection i { s.sectionRec i with persistence := .stopped, persistentMade := true }) i :=
    setSection_settles s i rfl .rfl fun h known => h.decisions i known
  unfold State.persistenceExpiry
  dsimp only
  split
  · split
    · exact set
    · exact set.record _
  · exact .refl s i

theorem onSection_settles {s : State} {i : Nat} {x : State × Result} (h : i < 16 → EventSettles s x.1 i) :
    EventSettles s (s.onSection i x).1 i := by
  unfold State.onSection
  split
  · exact .refl s i
  next taken =>
    refine h (Nat.lt_of_not_le fun beyond => ?_)
    unfold State.sectionCheck at taken
    split at taken <;> cases taken

theorem setBlockOn_settles (s : State) (i : Nat) : EventSettles s (s.setBlockOn i).1 i := by
  refine onSection_settles fun _ => ?_
  have set : EventSettles s (s.setSection i { s.sectionRec i with
      block := true
      state := if (s.sectionRec i).state = .armed ∨ (s.sectionRec i).state = .light then .blocked else (s.sectionRec i).state
      persistence := if (s.sectionRec i).state = .light then .stopped else (s.sectionRec i).persistence }) i := by
    refine setSection_settles s i rfl ?_ fun _ _ => ?_ <;> dsimp only <;> split
    next acts => rcases acts with e | e <;> rw [e] <;> exact ⟨nofun, nofun⟩
    next => exact .rfl
    next => exact fits_still s i nofun nofun
    next rests => exact fits_still s i (fun e => rests (.inl e)) fun e => rests (.inr e)
  dsimp only
  split
  · exact set
  · exact set.record _

theorem setBlockOff_settles (s : State) (i : Nat) : EventSettles s (s.setBlockOff i).1 i := by
  refine onSection_settles fun known => ?_
  set r := s.sectionRec i with hr
  set u := s.setSection i { r with block := false, state := if r.state = .blocked then .armed else r.state } with hu
  have shown : ∀ v : State, OthersStand s v i → SameInactive s v → (v.sectionRec i).state = (u.sectionRec i).state →
      (r.state ≠ .blocked → SameDecision s v i) →
      EventSettles s (if r.state = .blocked then v.evaluate i .other else v) i := fun v others inactive state decision => by
    have own : (v.sectionRec i).state = if r.state = .blocked then .armed else r.state := by
      rw [state, hu, sectionRec_setSection_own s known]
    split
    next blocked =>
      rw [if_pos blocked] at own
      exact ⟨others.trans (evaluate_becomes v known .other).othersStand,
        inactive.trans (evaluate_sameInactive (by rw [own]; exact nofun) .other), fun _ _ => evaluate_fits v known .other⟩
    next unblocked =>
      rw [if_neg unblocked] at own
      refine ⟨others, inactive, fun h _ => ?_⟩
      rw [(decision unblocked).fits, own]
      exact h.decisions i known
  have set : SameInactive s u := setSection_sameInactive s i (by
    dsimp only
    split
    next blocked => rw [← hr, blocked]; exact ⟨nofun, nofun⟩
    next => exact .rfl)
  have decision : SameDecision s u i := setSection_decision_own s i rfl
  dsimp only
  by_cases flag : r.block = true
  · rw [if_pos flag]
    exact shown _ ((setSection_others s i _).trans (record_others _ _ i)) (set.trans (record_sameInactive _ _)) rfl
      fun _ => decision
  · rw [if_neg flag]
    exact shown _ (setSection_others s i _) set rfl fun _ => decision

theorem setMaintenance_settles (s : State) (i : Nat) (on : Bool) : EventSettles s (s.setMaintenance i on).1 i := by
  refine onSection_settles fun _ => ?_
  dsimp only
  split
  · exact .refl s i
  · obtain ⟨others, own⟩ := reportTo_settles ((s.setSection i { s.sectionRec i with maintenance := on }).record
      (flagRecord .maintenanceChange i on)) i .other
    exact ⟨((setSection_others s i _).trans (record_others _ _ i)).trans others,
      ((setSection_sameInactive s i (r := { s.sectionRec i with maintenance := on }) .rfl).trans (record_sameInactive _ _)).trans
        (reportTo_sameInactive _ i .other), fun _ _ => own⟩

/-- A released section has no light, and so a false trip condition (R59, R100). -/
theorem release_settles (s : State) (i : Nat) : EventSettles s (s.release i).1 i := by
  refine onSection_settles fun known => ?_
  split
  next taken =>
    have removed := removeSection_kept s i
    have inputs : SameInputs s (s.removeSection i) := .of_sections removed.sections removed.active removed.mode
    have records := State.sectionRec_congr (congrArg SectionEvaluator.records removed.sections)
    have same : SameInactive s (s.removeSection i) := .of_records removed.active removed.mode fun j => by rw [records]
    have state : (if (s.sectionRec i).block = true then SectionState.blocked else .armed) ≠ .inactive := by
      split <;> exact nofun
    have decision := (inputs.decision i).trans (setSection_decision_own (s.removeSection i) i
      (r := { s.sectionRec i with state := if (s.sectionRec i).block then .blocked else .armed }) (by rw [records]))
    refine EventSettles.record ⟨(inputs.others records i).trans (setSection_others _ i _), same.trans (setSection_sameInactive _ i ?_),
      fun h _ => ?_⟩ _
    · rw [records, taken.1]
      exact ⟨fun e => absurd e state, nofun⟩
    · rw [sectionRec_setSection_own _ known, decision.fits]
      dsimp only
      split
      · exact fits_still s i nofun nofun
      · exact ⟨fun _ => ⟨tripCondition_unlit h.eligible taken.2, taken.2⟩, nofun⟩
  next => exact .refl s i

theorem SectionEvent.settles {s t : State} (h : SectionEvent s t) : ∃ i, EventSettles s t i ∧ t.channels = s.channels := by
  cases h with
  | persistence i => exact ⟨i, persistenceExpiry_settles s i, (persistenceExpiry_kept s i).channels⟩
  | blocked i => exact ⟨i, setBlockOn_settles s i, (setBlockOn_kept s i).channels⟩
  | unblocked i => exact ⟨i, setBlockOff_settles s i, (setBlockOff_kept s i).channels⟩
  | maintained i on => exact ⟨i, setMaintenance_settles s i on, (setMaintenance_kept s i on).channels⟩
  | released i => exact ⟨i, release_settles s i, (release_kept s i).channels⟩

/-- Every change leaves no trip owed. -/
theorem Turn.noTripOwed {s t : State} (h : Turn s t) (i : NoTripOwed s) : NoTripOwed t := by
  cases h with
  | calm h =>
    cases h with
    | apart h => exact i.congr h.channels h.sections h.active h.mode
    | channel own how =>
      exact ⟨changeChannel_decisions s _ _ _ i.decisions, changeChannel_eligible own how i.eligible,
        (changeChannel_sameInactive s _ _ _).tabled i.inactive⟩
    | event h =>
      obtain ⟨j, settles, channels⟩ := h.settles
      exact i.ofSection settles.others (settles.own i) channels h.views settles.inactive
  | node new own => exact i.congr rfl rfl rfl rfl
  | @point p old new own =>
    exact ⟨changePoint_decisions s p old new i.inactive i.decisions,
      eligibleIsLit_congr (changePoint_kept s p old new).channels (channelView_changePoint s p old new) i.eligible,
      (changePoint_sameInactive s p old new).tabled i.inactive⟩
  | position new own => exact i.congr rfl rfl rfl rfl

end Sys2Proof.Machine
end

section
/-! SUPPORT. No trip is owed after an activation or a reset (R81, R82, R87, R102), nor as time passes. -/

namespace Sys2Proof.Machine

open Sys2Proof.Safety

/-! ## Every section recomputed (R87, R102) -/

/-- A section fits its state, and is INACTIVE as R87 says. -/
def State.settled (s : State) (i : Nat) : Prop :=
  i < 16 → s.fits i (s.sectionRec i).state ∧ ((s.sectionRec i).state = .inactive ↔ s.sectionInactive i = true)

/-- A recomputed section is settled (R87). -/
theorem recompute_settled (s : State) (i : Nat) : (s.recompute i).settled i := by
  intro known
  have kept := recompute_kept s i
  have still : ∀ r : SectionRec, r.state ≠ .armed → r.state ≠ .light → (r.state = .inactive ↔ s.sectionInactive i = true) →
      (s.setSection i r).fits i ((s.setSection i r).sectionRec i).state ∧
        (((s.setSection i r).sectionRec i).state = .inactive ↔ s.sectionInactive i = true) := fun r armed light inactive => by
    rw [sectionRec_setSection_own s known]
    exact ⟨fits_still _ i armed light, inactive⟩
  rw [sectionInactive_congr kept.mode kept.active]
  unfold State.recompute
  dsimp only
  split
  next inactive => exact still _ nofun nofun ⟨fun _ => inactive, fun _ => rfl⟩
  next active =>
    split
    · exact still _ nofun nofun ⟨nofun, fun e => absurd e active⟩
    · split
      · exact still _ nofun nofun ⟨nofun, fun e => absurd e active⟩
      · exact ⟨evaluate_fits _ known .other, ⟨fun e => absurd e (evaluate_active _ known .other), fun e => absurd e active⟩⟩

/-- A recomputation of one section leaves every other one settled. -/
theorem recompute_keepsSettled (s : State) {i : Nat} (inTable : i < 16) (j : Nat) (h : s.settled j) : (s.recompute i).settled j := by
  by_cases here : j = i
  · subst here
    exact recompute_settled s j
  · intro known
    obtain ⟨state, becomes, -⟩ := recompute_becomes s inTable
    rw [(becomes.inputs.decision j).fits, becomes.others j here, sectionInactive_congr becomes.inputs.mode becomes.inputs.active]
    exact h known

theorem recomputeSections_settled (s : State) (i : Nat) (known : i < 16) : s.recomputeSections.settled i :=
  foldl_settles (R := fun _ => True) (P := State.settled) (fun _ _ _ => trivial) (List.range 16)
    (fun u _ mem => recompute_keepsSettled u (List.mem_range.1 mem) i) s.refreshView trivial
    (.inr ⟨List.mem_range.2 known, fun u _ => recompute_settled u i⟩)

theorem decisions_of_settled {s : State} (h : ∀ i, i < 16 → s.settled i) : DecisionsCurrent s ∧ InactiveAsTabled s :=
  ⟨fun i known => (h i known known).1, fun i known => (h i known known).2⟩

/-! ## Records that are carried over, or fresh -/

/-- After an activation every section is settled, and the channels that were not carried over are not eligible (R65, R102). -/
theorem swap_noTripOwed {s : State} (h : NoTripOwed s) : NoTripOwed s.swap := by
  have eligible : EligibleIsLit s.swap := eligibleIsLit_of_view (swap_current s) fun c r own => by
    rcases channel_swap own with was | ⟨-, cond, rfl⟩
    · exact h.eligible.1 c r was
    · exact nofun
  obtain ⟨decisions, inactive⟩ := decisions_of_settled (recomputeSections_settled s.newTables.loopActivation)
  obtain ⟨-, -, -, -, sections, agent, -⟩ := beginStoreWrite_same s.swapped
  rw [swap_swapped] at eligible ⊢
  have inputs : SameInputs s.swapped s.swapped.beginStoreWrite := .of_sections sections (congrArg _ agent) (congrArg _ agent)
  have records := State.sectionRec_congr (congrArg SectionEvaluator.records sections)
  refine ⟨fun i known => ?_, eligible, (SameInactive.of_records inputs.active inputs.mode fun i => by rw [records]).tabled inactive⟩
  exact ((inputs.decision i).fits (state := (s.swapped.beginStoreWrite.sectionRec i).state)).2 (by rw [records]; exact decisions i known)

/-- Channels with no data light no section (R83). -/
theorem someLit_noData {s : State} (view : ViewCurrent s) (h : ∀ c r, s.channel c = some r → r.cond = .noData) (i : Nat) :
    s.someLit i = false := by
  unfold State.someLit State.lowestLit
  rw [Option.isSome_eq_false_iff, Option.isNone_iff_eq_none, List.find?_eq_none]
  intro c _ lit
  unfold State.litIn State.contributes State.viewed at lit
  rw [view.1 c] at lit
  cases own : s.channel c with
  | none => simp [own] at lit
  | some r => simp [own, ChannelRec.view, h c r own, ChannelCond.contributes] at lit

/-- After a reset every channel is NO_DATA, so no section has light, and a section is ARMED, BLOCKED or TRIPPED unless it is INACTIVE as
R87 says (R81, R82). -/
theorem Fresh.noTripOwed {set : Tables} {t : State} (fresh : Fresh set t) (view : ViewCurrent t)
    (states : ∀ i, i < 16 → (t.sectionRec i).state ≠ .light ∧ ((t.sectionRec i).state = .inactive ↔ t.sectionInactive i = true)) :
    NoTripOwed t := by
  have records : ∀ c r, t.channel c = some r → r.eligible = false ∧ r.cond = .noData := fun c r own => by
    obtain ⟨-, rfl⟩ := fresh.channel own
    exact ⟨rfl, rfl⟩
  have eligible : EligibleIsLit t := eligibleIsLit_of_view view fun c r own e => absurd e (by rw [(records c r own).1]; exact nofun)
  have dark : ∀ i, t.someLit i = false := someLit_noData view fun c r own => (records c r own).2
  exact ⟨fun i known => ⟨fun _ => ⟨tripCondition_unlit eligible (dark i), dark i⟩, fun e => absurd e (states i known).1⟩, eligible,
    fun i known => (states i known).2⟩

/-- A section's state after a reset, when it is not kept TRIPPED (R81, R82). -/
theorem resetState_inactive (inactive block : Bool) :
    let state : SectionState := if inactive then .inactive else if block then .blocked else .armed
    state ≠ .light ∧ (state = .inactive ↔ inactive = true) := by
  cases inactive <;> cases block <;> simp

theorem softBase_noTripOwed {s : State} (h : NoTripOwed s) : NoTripOwed s.softBase := by
  obtain ⟨-, -, -, -, agent, -⟩ := softBase_values s
  refine (softBase_fresh s).noTripOwed (softBase_current s) fun i known => ?_
  have mode : s.softBase.agent.mode = s.agent.mode := by rw [agent]; rfl
  have active : s.softBase.agent.active = s.agent.active := by rw [agent]; rfl
  rw [softBase_sectionRec s known, sectionInactive_congr mode active]
  split
  next tripped =>
    refine ⟨by rw [tripped]; exact nofun, ?_⟩
    exact h.inactive i known
  next => exact resetState_inactive _ _

theorem hardBase_noTripOwed (s : State) (h : HardReset) (mv : Nat) : NoTripOwed (s.hardBase h mv) := by
  refine (hardBase_fresh s h mv).noTripOwed (hardBase_current s h mv) fun i known => ?_
  rw [hardBase_sectionRec s h mv known]
  exact resetState_inactive _ false

/-! ## Time passes -/

theorem tick_noTripOwed {s : State} (up : Up s) (h : NoTripOwed s) : NoTripOwed s.tick := by
  obtain ⟨channels, -, -, channelViews, pointViews, agent, -⟩ := tick_same s
  have record : ∀ i, i < 16 → s.tick.sectionRec i = { s.sectionRec i with persistence := (s.sectionRec i).persistence.tick } :=
    fun i known => sectionRec_ofFn (tick_records up) known
  have flags : ∀ i, (s.tick.sectionRec i).state = (s.sectionRec i).state ∧
      (s.tick.sectionRec i).maintenance = (s.sectionRec i).maintenance ∧ (s.tick.sectionRec i).block = (s.sectionRec i).block :=
    fun i => by
      by_cases known : i < 16
      · rw [record i known]
        exact ⟨rfl, rfl, rfl⟩
      · rw [sectionRec_outside _ known, sectionRec_outside _ known]
        exact ⟨rfl, rfl, rfl⟩
  have inputs : SameInputs s s.tick := ⟨channelViews, pointViews, congrArg _ agent, congrArg _ agent, fun i => (flags i).2.1,
    fun i => (flags i).2.2⟩
  refine ⟨fun i known => ?_, eligibleIsLit_congr channels (State.channelView_congr channelViews) h.eligible,
    (SameInactive.of_records inputs.active inputs.mode fun i => (flags i).1).tabled h.inactive⟩
  exact ((inputs.decision i).fits (state := (s.tick.sectionRec i).state)).2 (by rw [(flags i).1]; exact h.decisions i known)

theorem noTripOwed_kept : KeptByTurns NoTripOwed where
  turn := fun turn i => turn.noTripOwed i
  swap := fun _ i => swap_noTripOwed i
  softReset := fun i => softBase_noTripOwed i
  ends := fun {s} h mv _ => hardBase_noTripOwed s h mv
  tick := fun up i => tick_noTripOwed up i

/-- Settles O54: each report evaluates the sections it can reach, an activation recomputes all, and a reset leaves no light. -/
theorem stepKeepsDecisionsCurrent : Obligations.stepKeepsDecisionsCurrent := by
  unfold Obligations.stepKeepsDecisionsCurrent
  intro s t decisions eligible inactive step
  obtain ⟨decisions', eligible', inactive'⟩ := noTripOwed_kept.step step ⟨decisions, eligible, inactive⟩
  exact ⟨decisions', eligible', inactive'⟩

end Sys2Proof.Machine
end

section
/-! SUPPORT. One processed sample, spelled out: what flicker detection makes of the window and of FLICKER (R54 to R57), and the
obligations about a processed sample. -/

namespace Sys2Proof.Machine

/-! ## Flicker detection, by the window that was open (R55 to R57) -/

section
variable (e : ChannelEntry) (r : ChannelRec) (crossing : Bool)

/-- The count of a window after a sample (R55). -/
def FlickerWindow.counted (e : ChannelEntry) (w : FlickerWindow) (crossing : Bool) : Nat :=
  if crossing then min e.limit.toNat (w.crossings + 1) else w.crossings

/-- FLICKER after a sample, before its window is advanced (R55). -/
def ChannelRec.flickers (e : ChannelEntry) (r : ChannelRec) (w : FlickerWindow) (crossing : Bool) : Bool :=
  r.flicker || (crossing && (w.counted e crossing = e.limit.toNat))

theorem flickerStep_off (off : e.window = 0) : (flickerStep e r crossing).1 = r := by
  unfold flickerStep
  rw [if_pos off]

variable {e r}

/-- Without a window a crossing opens one and any other sample does nothing (R55). -/
theorem flickerStep_noWindow (on : e.window ≠ 0) (closed : r.window = none) :
    (flickerStep e r crossing).1 = { r with window := if crossing then some ⟨1, 0⟩ else none } := by
  unfold flickerStep countCrossing
  rw [if_neg on, if_pos closed, closed]
  cases crossing
  · rw [if_neg Bool.false_ne_true, ← closed]
    rfl
  · rfl

/-- A sample of an open window is counted in it first. -/
theorem countCrossing_window {w : FlickerWindow} (opened : r.window = some w) :
    (if crossing then countCrossing e r else (r, .nothing)).1 =
      { r with window := some ⟨w.counted e crossing, w.elapsed⟩, flicker := r.flickers e w crossing } := by
  obtain ⟨raw, comp, gain, integ, light, pred, window, flicker, eligible, cond, standing⟩ := r
  obtain rfl : window = some w := opened
  unfold countCrossing FlickerWindow.counted ChannelRec.flickers FlickerWindow.counted
  cases crossing
  · simp
  · by_cases full : min e.limit.toNat (w.crossings + 1) = e.limit.toNat <;> cases flicker <;> simp [full]

/-- An open window with its sample counted is advanced, or closes (R55, R56). -/
theorem flickerStep_window {w : FlickerWindow} (on : e.window ≠ 0) (opened : r.window = some w) :
    (flickerStep e r crossing).1 =
      if e.window.toNat ≤ w.elapsed + 1 then
        if w.counted e crossing < e.limit.toNat then { r with window := none, flicker := false }
        else { r with window := some ⟨0, 0⟩, flicker := r.flickers e w crossing }
      else { r with window := some ⟨w.counted e crossing, w.elapsed + 1⟩, flicker := r.flickers e w crossing } := by
  unfold flickerStep
  rw [if_neg on, if_neg (by rw [opened]; exact nofun)]
  dsimp only
  rw [countCrossing_window crossing opened]
  unfold advanceWindow closeWindow
  dsimp only
  split
  · split <;> rfl
  · rfl

end

/-! ## The window and FLICKER after a processed sample (R54 to R59) -/

section
variable {e : ChannelEntry} {r : ChannelRec} {x : Sample}

theorem process_flickerStep (e : ChannelEntry) (r : ChannelRec) (x : Sample) :
    (r.process e x).1.window = (flickerStep e (r.stepped e x) (isCrossing e r x)).1.window ∧
    (r.process e x).1.flicker = (flickerStep e (r.stepped e x) (isCrossing e r x)).1.flicker ∧
    (r.process e x).2 = (flickerStep e (r.stepped e x) (isCrossing e r x)).2 := by
  cases x <;> exact ⟨rfl, rfl, rfl⟩

theorem process_noWindow (on : e.window ≠ 0) (closed : r.window = none) :
    (r.process e x).1.window = (if isCrossing e r x then some ⟨1, 0⟩ else none) ∧ (r.process e x).1.flicker = r.flicker := by
  obtain ⟨window, flicker, -⟩ := process_flickerStep e r x
  rw [window, flicker, flickerStep_noWindow _ on (r := r.stepped e x) closed]
  exact ⟨rfl, rfl⟩

/-- A sample that does not fill the window advances it (R56). -/
theorem process_window_runs {w : FlickerWindow} (on : e.window ≠ 0) (opened : r.window = some w)
    (runs : w.elapsed + 1 < e.window.toNat) :
    (r.process e x).1.window = some ⟨w.counted e (isCrossing e r x), w.elapsed + 1⟩ ∧
      (r.process e x).1.flicker = r.flickers e w (isCrossing e r x) := by
  obtain ⟨window, flicker, -⟩ := process_flickerStep e r x
  rw [window, flicker, flickerStep_window _ on (r := r.stepped e x) opened, if_neg (by omega)]
  exact ⟨rfl, rfl⟩

/-- A window that closes with fewer crossings than F clears FLICKER (R56). -/
theorem process_window_clears {w : FlickerWindow} (on : e.window ≠ 0) (opened : r.window = some w)
    (full : e.window.toNat ≤ w.elapsed + 1) (few : w.counted e (isCrossing e r x) < e.limit.toNat) :
    (r.process e x).1.window = none ∧ (r.process e x).1.flicker = false := by
  obtain ⟨window, flicker, -⟩ := process_flickerStep e r x
  rw [window, flicker, flickerStep_window _ on (r := r.stepped e x) opened, if_pos full, if_pos few]
  exact ⟨rfl, rfl⟩

/-- A window that closes with F crossings opens a fresh one (R56). -/
theorem process_window_reopens {w : FlickerWindow} (on : e.window ≠ 0) (opened : r.window = some w)
    (full : e.window.toNat ≤ w.elapsed + 1) (many : e.limit.toNat ≤ w.counted e (isCrossing e r x)) :
    (r.process e x).1.window = some ⟨0, 0⟩ ∧ (r.process e x).1.flicker = r.flickers e w (isCrossing e r x) := by
  obtain ⟨window, flicker, -⟩ := process_flickerStep e r x
  rw [window, flicker, flickerStep_window _ on (r := r.stepped e x) opened, if_pos full, if_neg (by omega)]
  exact ⟨rfl, rfl⟩

/-- The window and FLICKER after a processed sample, in every case. -/
theorem process_windows {crossing : Bool} (on : e.window ≠ 0) (same : isCrossing e r x = crossing) :
    (r.window = none →
      (r.process e x).1.window = (if crossing then some ⟨1, 0⟩ else none) ∧ (r.process e x).1.flicker = r.flicker) ∧
    ∀ w, r.window = some w →
      (w.elapsed + 1 < e.window.toNat →
        (r.process e x).1.window = some ⟨w.counted e crossing, w.elapsed + 1⟩ ∧ (r.process e x).1.flicker = r.flickers e w crossing) ∧
      (e.window.toNat ≤ w.elapsed + 1 → w.counted e crossing < e.limit.toNat →
        (r.process e x).1.window = none ∧ (r.process e x).1.flicker = false) ∧
      (e.window.toNat ≤ w.elapsed + 1 → e.limit.toNat ≤ w.counted e crossing →
        (r.process e x).1.window = some ⟨0, 0⟩ ∧ (r.process e x).1.flicker = r.flickers e w crossing) := by
  subst same
  exact ⟨process_noWindow on, fun w opened =>
    ⟨process_window_runs on opened, process_window_clears on opened, process_window_reopens on opened⟩⟩

theorem eligibleOf_iff (light : LightState) (flicker : Bool) (integ qualify : Nat) :
    eligibleOf light flicker integ qualify = true ↔
      light = .lit ∧ (flicker = false ∨ min 65535 (2 * qualify) ≤ integ) := by
  unfold eligibleOf
  simp [Config.wordMax]

end

/-! ## Its FLICKER record (R58) -/

section
variable {s : State} {c : Nat} {r : ChannelRec} {x : Sample}

/-- The FLICKER record of a channel (R58). -/
def State.flickerBody (s : State) (c : Nat) (kind : RecordKind) : RecordBody :=
  { kind := kind, category := .notice, channel := some c, sect := (s.tables.channel c).sectOf }

/-- The Event Pool with the FLICKER record of a channel whose FLICKER goes from `before` to `after`, if it calls for one. -/
def State.flickerPool (s : State) (c : Nat) (before after : Bool) : EventPool :=
  if before = false ∧ after = true then s.pool.take s.deviceTime (s.flickerBody c .flickerOn)
  else if before = true ∧ after = false then s.pool.take s.deviceTime (s.flickerBody c .flickerOff)
  else s.pool

theorem flickerRecords_pool (s : State) (c : Nat) (r : ChannelRec) (x : Sample) :
    let p := r.process (s.tables.channel c) x
    ((s.flickerRecord c p.2.1).flickerRecord c p.2.2).pool = s.flickerPool c r.flicker p.1.flicker ∧
      ((s.flickerRecord c p.2.1).flickerRecord c p.2.2).deviceTime = s.deviceTime := by
  obtain ⟨-, flicker, events⟩ := process_flickerStep (s.tables.channel c) r x
  dsimp only
  rw [flicker, events]
  unfold State.flickerPool
  rcases flickerStep_events (s.tables.channel c) (r.stepped (s.tables.channel c) x) (isCrossing (s.tables.channel c) r x) with
    ⟨off, on, event⟩ | ⟨on, off, event⟩ | ⟨same, event⟩
  · rw [event, on, show r.flicker = false from off]
    exact ⟨rfl, rfl⟩
  · rw [event, off, show r.flicker = true from on]
    exact ⟨rfl, rfl⟩
  · rw [event, same, if_neg, if_neg]
    · exact ⟨rfl, rfl⟩
    · rintro ⟨on, off⟩
      exact absurd (on.symm.trans off) (by decide)
    · rintro ⟨off, on⟩
      exact absurd (off.symm.trans on) (by decide)

/-- A processed sample makes its FLICKER record first; no later record is one. -/
theorem processSample_pool (own : s.channel c = some r) (x : Sample) :
    ∃ later : List RecordBody, (∀ b ∈ later, b.kind ≠ .flickerOn ∧ b.kind ≠ .flickerOff) ∧
      (s.processSample c x).pool = later.foldl (fun p b => p.take s.deviceTime b)
        (s.flickerPool c r.flicker (r.process (s.tables.channel c) x).1.flicker) := by
  obtain ⟨pool, time⟩ := flickerRecords_pool s c r x
  obtain ⟨later, made, kinds⟩ := (changeChannel_onlyTrips
    ((s.flickerRecord c (r.process (s.tables.channel c) x).2.1).flickerRecord c (r.process (s.tables.channel c) x).2.2)
    c r (r.process (s.tables.channel c) x).1).pool
  refine ⟨later, fun b mem => ⟨(kinds b mem).2.1, (kinds b mem).2.2.1⟩, ?_⟩
  rw [← pool, ← time, ← made]
  unfold State.processSample
  rw [own]
  rfl

end

/-- Settles O18: the fields of a processed record, for a received, a held and a missing sample. -/
theorem sampleArithmetic : Obligations.sampleArithmetic := by
  intro e r
  obtain ⟨comp', integ', light', -⟩ := process_fields e r .missing
  refine ⟨fun l => ?_, fun c level => ?_, comp', integ', light', fun x => ?_⟩
  · obtain ⟨comp, integ, light, -⟩ := process_fields e r (.received l)
    exact ⟨comp, integ, light⟩
  · obtain ⟨comp, integ, light, -⟩ := process_fields e r .held
    have held : Sample.level r .held = some c := level
    rw [held] at integ light
    exact ⟨comp.trans level, integ, light⟩
  · obtain ⟨-, -, -, gain, raw, cond, standing, -⟩ := process_fields e r x
    exact ⟨gain, raw, cond, standing⟩

/-- Settles O19: the window's three ways are lemmas of their own, and the sample's FLICKER record is the first that it makes. -/
theorem flickerAndEligibility : Obligations.flickerAndEligibility := by
  refine ⟨fun e r x => ?_, fun s c r x own => ?_⟩
  · obtain ⟨-, -, -, -, -, -, -, pred, eligible⟩ := process_fields e r x
    refine ⟨?_, ?_, fun off => ?_, fun on => ?_⟩
    · rw [eligible, eligibleOf_iff]
    · rw [pred]
      cases x with
      | received l => rfl
      | held =>
        show some (belowThreshold e r.comp) = _
        cases r.comp <;> rfl
      | missing => rfl
    · obtain ⟨window, flicker, -⟩ := process_flickerStep e r x
      rw [flickerStep_off e _ _ off] at window flicker
      exact ⟨window, flicker⟩
    · refine process_windows on ?_
      cases x with
      | received l => rfl
      | held => exact (Bool.and_false _).symm
      | missing => exact (Bool.and_false _).symm
  · refine ⟨(channel_processSample own c x).trans (if_pos rfl), fun j other => (channel_processSample own j x).trans (if_neg other),
      processSample_pool own x⟩

end Sys2Proof.Machine
end

section
/-! SUPPORT. The test of a channel whose node is LIVE: how it ends, what a sample of the channel under test does to it, and the
obligations about a lens test's samples and endings (R137 to R142, R146). -/

namespace Sys2Proof.Machine

open Host (Outcome)
open Sys2Proof.Safety

/-! ## A frame with one sample for one channel -/

theorem exec_singleLight {s : State} {source seq last : Byte} {payload : List Byte} {n c level : Nat} {flag : Bool} {timer : Timer}
    (up : Up s) (source_ne : source ≠ 0) (admitted : s.admission .light source payload = some (n, .light [(level, flag)]))
    (live : s.node n = some ⟨.live, some last, timer⟩) (new : 1 ≤ (seq - last).toNat) (near : (seq - last).toNat ≤ 128)
    (named : s.channelAt n 0 = some c) :
    exec (.lightSample source seq payload) s =
      .next ((s.setNode n ⟨.live, some seq, .running (10 * (s.tables.node n).stale.toNat)⟩).deliverLight c level flag
        ((seq - last).toNat - 1)) := by
  have seq_ne : seq ≠ last := fun e => by
    subst e
    simp at new
  have executed := exec_frameOfLive (k := .light) up source_ne admitted live seq_ne
  rw [stayLive_eq, if_pos near, show gapOf (seq - last).toNat = (seq - last).toNat - 1 from if_pos near,
    deliver_light_from (s := s) (t := s.setNode n _) rfl, deliverEach_cons, named] at executed
  exact executed

/-- A node stays LIVE under its new record, and no other node's record is written. -/
theorem nodeLive_setNode_live {s : State} {n : Nat} {r : NodeRec} (known : s.node n = some r) (q : NodeRec) (live : q.live = .live) :
    (s.setNode n q).nodeLive n = true := by
  unfold State.nodeLive
  rw [State.node_setNode, if_pos ⟨rfl, node_lt known⟩]
  exact decide_eq_true live

/-! ## An ending, from the state in which its command began -/

/-- An ending is described by what it finds of the pool, the output, the held TEST frames, device time and the tables. -/
theorem testEnds_from {u s t : State} {c peak count gain : Nat} {result : LensResult} (tables : u.tables = s.tables)
    (pool : u.pool = s.pool) (time : u.deviceTime = s.deviceTime) (loop : u.loop = s.loop) (held : u.lens.held = s.lens.held)
    (h : TestEnds u t c peak count gain result) : TestEnds s t c peak count gain result := by
  unfold TestEnds Busy at h ⊢
  rw [tables, pool, time, loop, held] at h
  exact h

/-- A test that ended: what `TestEnds` says, and what became of the channels. -/
structure EndedTest (s t : State) (c peak count gain : Nat) (result : LensResult) (left : ChannelRec) : Prop where
  ends : TestEnds s t c peak count gain result
  own : t.channel c = some left
  others : ∀ j, j ≠ c → t.channel j = s.channel j

/-- A TESTING channel of a LIVE node. -/
structure Testing (s : State) (c : Nat) (r : ChannelRec) : Prop where
  own : s.channel c = some r
  cond : r.cond = .testing
  live : s.nodeLive (s.tables.channel c).node.toNat = true

section
variable {s : State} {c : Nat} {r : ChannelRec} (testing : Testing s c r)
include testing

/-- The record that a test leaves: the channel's standing, and the aborting sample processed (R63, R64). -/
theorem endTest_ended (result : LensResult) (aborting : Option Nat) :
    EndedTest s (s.endTest c result aborting) c s.lens.peak s.lens.count r.gain result
      (match aborting with
        | none => { r with cond := r.standing.cond }
        | some level =>
          (ChannelRec.process (s.tables.channel c) { r with cond := r.standing.cond } (.received level)).1) where
  ends := endTest_ends s c r result aborting testing.own testing.live
  own := (channel_endTest s c c r result aborting testing.own testing.cond testing.live).trans (if_pos rfl)
  others j other := (channel_endTest s c j r result aborting testing.own testing.cond testing.live).trans (if_neg other)

/-- A complete window hands over its gain and standing, and ends the test with its result (R141). -/
theorem completeWindow_ended :
    let g := gainResult (s.tables.channel c).reference.toNat s.lens.peak r.gain
    EndedTest s (s.completeWindow c) c s.lens.peak s.lens.count g.2.1 g.1
      { r with gain := g.2.1, standing := g.2.2, cond := g.2.2.cond } := by
  intro g
  set handed : State := s.setChannel c { r with gain := g.2.1, standing := g.2.2 } with handed_eq
  have completed : s.completeWindow c = handed.endTest c g.1 none := by
    unfold State.completeWindow State.handOver
    rw [testing.own]
    rfl
  have write := channel_setChannel_of_some testing.own
  have still : Testing handed c { r with gain := g.2.1, standing := g.2.2 } :=
    ⟨(write c _).trans (if_pos rfl), testing.cond, testing.live⟩
  have ended := endTest_ended still g.1 none
  rw [completed]
  exact ⟨testEnds_from (u := handed) rfl rfl rfl rfl rfl ended.ends, ended.own,
    fun j other => (ended.others j other).trans ((write j _).trans (if_neg other))⟩

/-- A flagged sample that completes the test window. -/
theorem countFlagged_ended {count peak : Nat} (full : count = (s.tables.channel c).testWindow.toNat) :
    let g := gainResult (s.tables.channel c).reference.toNat peak r.gain
    EndedTest s (s.countFlagged c count peak) c peak count g.2.1 g.1
      { r with gain := g.2.1, standing := g.2.2, cond := g.2.2.cond } := by
  intro g
  set counted : State := s.setLens { s.lens with state := .measuring, startWait := .stopped, count := count, peak := peak }
  have completed : s.countFlagged c count peak = counted.completeWindow c := if_pos full
  have ended := completeWindow_ended (s := counted) ⟨testing.own, testing.cond, testing.live⟩
  rw [completed]
  exact ⟨testEnds_from (u := counted) rfl rfl rfl rfl rfl ended.ends, ended.own, ended.others⟩

end

/-- A flagged sample that does not complete the test window is counted, and no more. -/
theorem countFlagged_counts {s : State} {c count peak : Nat} (part : count ≠ (s.tables.channel c).testWindow.toNat) :
    s.countFlagged c count peak =
      s.setLens { s.lens with state := .measuring, startWait := .stopped, count := count, peak := peak } := if_neg part

/-! ## A sample of the channel under test (R63, R137, R138, R140) -/

section
variable {s : State} {c level : Nat} {flag : Bool} (current : s.lens.channel = some c)
include current

theorem lensSample_aborts (active : s.lens.state ≠ .idle) (above : min 4095 (3 * (s.tables.channel c).reference.toNat) < level) :
    s.lensSample c level flag = s.endTest c .abortedLight (some level) := by
  have under_test : ¬(s.lens.channel ≠ some c ∨ s.lens.state = .idle) := not_or.2 ⟨not_not.2 current, active⟩
  have ends : testCeiling (s.channelEntry c) < level := above
  unfold State.lensSample
  rw [if_neg under_test, if_pos ends]

variable (below : level ≤ min 4095 (3 * (s.tables.channel c).reference.toNat))
include below

theorem lensSample_starting (starting : s.lens.state = .starting) :
    s.lensSample c level flag = if flag then s.countFlagged c 1 level else s := by
  have under_test : ¬(s.lens.channel ≠ some c ∨ s.lens.state = .idle) := by
    rw [starting]
    exact not_or.2 ⟨not_not.2 current, nofun⟩
  have goes_on : ¬testCeiling (s.channelEntry c) < level := Nat.not_lt.2 below
  unfold State.lensSample
  rw [if_neg under_test, if_neg goes_on, starting]
  cases flag <;> rfl

theorem lensSample_measuring (measuring : s.lens.state = .measuring) :
    s.lensSample c level flag =
      if flag then s.countFlagged c (s.lens.count + 1) (max s.lens.peak level) else s.endTest c .noResponse none := by
  have under_test : ¬(s.lens.channel ≠ some c ∨ s.lens.state = .idle) := by
    rw [measuring]
    exact not_or.2 ⟨not_not.2 current, nofun⟩
  have goes_on : ¬testCeiling (s.channelEntry c) < level := Nat.not_lt.2 below
  unfold State.lensSample
  rw [if_neg under_test, if_neg goes_on, measuring]
  cases flag <;> rfl

end

theorem deliverLight_testing {s : State} {c : Nat} {r : ChannelRec} (own : s.channel c = some r) (cond : r.cond = .testing)
    (level gap : Nat) (flag : Bool) :
    s.deliverLight c level flag gap = (s.setChannel c { r with raw := some level }).lensSample c level flag := by
  unfold State.deliverLight
  rw [own]
  dsimp only
  rw [cond]

/-- Settles O3: the frame comes to one sample handed to the engine in the state that has noted it, and each way the engine takes is
a lemma above. -/
theorem lensTestSamples : Obligations.lensTestSamples := by
  intro s source seq hi lo last n c level flag timer r up source_ne admitted live new near named own cond current active
    e stamped received heard counted ceiling answers ended
  obtain ⟨-, -, node, -⟩ := (channelAt_names s n 0).1 c named
  have own' : (s.setNode n stamped).channel c = some r := own
  have write := channel_setChannel_of_some own'
  have testing : Testing heard c received :=
    ⟨(write c received).trans (if_pos rfl), cond, by
      show (s.setNode n stamped).nodeLive e.node.toNat = true
      rw [node]
      exact nodeLive_setNode_live live stamped rfl⟩
  have executed : exec (.lightSample source seq [1, hi, lo]) s = .next (heard.lensSample c level flag) :=
    (exec_singleLight up source_ne admitted live new near named).trans
      (congrArg _ (deliverLight_testing own' cond level _ flag))
  have answered : ∀ {t : State}, heard.lensSample c level flag = t → answers t := fun h => executed.trans (congrArg _ h)
  have endings : ∀ {t : State} {peak count gain : Nat} {result : LensResult} {left : ChannelRec},
      heard.lensSample c level flag = t → EndedTest heard t c peak count gain result left → KeptByLens heard t →
        ended peak count gain result left := fun h k kept =>
    ⟨_, answered h, testEnds_from (u := heard) rfl rfl rfl rfl rfl k.ends, k.own,
      fun j other => (k.others j other).trans ((write j received).trans (if_neg other)), kept.nodes, kept.points, kept.positions⟩
  refine ⟨fun below => ?_, fun above => endings (lensSample_aborts (s := heard) current active above)
    (endTest_ended testing _ _) (endTest_kept heard c _ _)⟩
  have at_start := lensSample_starting (s := heard) (flag := flag) current below
  have at_work := lensSample_measuring (s := heard) (flag := flag) current below
  refine ⟨fun starting off => answered ?_, fun starting on part => answered ?_, fun measuring on part => answered ?_,
    fun measuring on full => endings ?_ (countFlagged_ended testing full) (countFlagged_kept heard c _ _),
    fun measuring off => endings ?_ (endTest_ended testing .noResponse none) (endTest_kept heard c _ _)⟩
  · exact (at_start starting).trans (if_neg (by rw [off]; exact Bool.false_ne_true))
  · exact ((at_start starting).trans (if_pos on)).trans (countFlagged_counts (s := heard) (Ne.symm part))
  · exact ((at_work measuring).trans (if_pos on)).trans (countFlagged_counts (s := heard) part)
  · exact (at_work measuring).trans (if_pos on)
  · exact (at_work measuring).trans (if_neg (by rw [off]; exact Bool.false_ne_true))

/-! ## The two endings that no sample brings (R138, R139) -/

theorem exec_startWaitTimerExpiry {s : State} (up : Up s) : exec .startWaitTimerExpiry s = .next s.startWaitExpiry :=
  congrArg Outcome.next (outsideReset_up up State.startWaitExpiry)

theorem exec_testWindowComplete {s : State} (up : Up s) : exec .testWindowComplete s = .next s.testWindowComplete :=
  congrArg Outcome.next (outsideReset_up up State.testWindowComplete)

theorem startWaitExpiry_running {s : State} {c : Nat} (current : s.lens.channel = some c) (running : s.lens.startWait.isRunning = true) :
    s.startWaitExpiry = s.endTest c .noResponse none := by
  unfold State.startWaitExpiry
  rw [running, current]

/-- TEST_WINDOW_COMPLETE acts where one flagged sample is missing, and nowhere else (log entry 3). -/
theorem testWindowComplete_eq {s : State} {c : Nat} (current : s.lens.channel = some c) :
    (s.lens.state = .measuring → s.lens.count + 1 = (s.tables.channel c).testWindow.toNat →
      s.testWindowComplete = s.countFlagged c (s.lens.count + 1) s.lens.peak) ∧
    (s.lens.count + 1 ≠ (s.tables.channel c).testWindow.toNat → s.testWindowComplete = s) := by
  unfold State.testWindowComplete
  rw [current]
  refine ⟨fun measuring full => ?_, fun part => ?_⟩
  · rw [measuring]
    exact if_pos full
  · cases s.lens.state with
    | measuring => exact if_neg part
    | idle => rfl
    | starting => rfl

/-- Gn is the integer nearest 256 Pref / Ppk, a half upward (R141). -/
theorem gainFor_nearest {peak : Nat} (lit : 0 < peak) (reference : Nat) :
    2 * peak * gainFor reference peak ≤ 2 * 256 * reference + peak ∧
      2 * 256 * reference + peak < 2 * peak * (gainFor reference peak + 1) := by
  have split := Nat.div_add_mod (256 * reference + peak / 2) peak
  have rest := Nat.mod_lt (256 * reference + peak / 2) lit
  change peak * gainFor reference peak + _ = _ at split
  generalize gainFor reference peak = gn at split ⊢
  rw [Nat.mul_assoc 2 peak gn, Nat.mul_assoc 2 peak (gn + 1), Nat.mul_add]
  omega

theorem gainResult_bright {reference peak : Nat} (bright : reference / 8 ≤ peak) (gain : Nat) :
    (1023 < gainFor reference peak → gainResult reference peak gain = (.dirty, 1023, .dirty)) ∧
    (gainFor reference peak ≤ 1023 → gainResult reference peak gain = (.done, max 256 (gainFor reference peak), .normal)) := by
  unfold gainResult
  rw [if_neg (Nat.not_lt.2 bright)]
  exact ⟨fun above => if_pos above, fun within => if_neg (Nat.not_lt.2 within)⟩

/-- Settles O34: either command is an ending of its own, and Gn is `gainFor`, of which `gainFor_nearest` says what it is. -/
theorem lensTestEndings : Obligations.lensTestEndings := by
  refine ⟨fun s c r up current own cond live => ⟨fun running => ?_, fun measuring full => ?_, fun part => ?_⟩,
    fun reference peak gain => ⟨fun dim => if_pos dim, fun bright lit => ?_⟩⟩
  · have ended := endTest_ended ⟨own, cond, live⟩ .noResponse none
    have kept := endTest_kept s c .noResponse none
    exact ⟨_, (exec_startWaitTimerExpiry up).trans (congrArg _ (startWaitExpiry_running current running)), ended.ends, ended.own,
      ended.others, kept.nodes, kept.points⟩
  · have ended := countFlagged_ended ⟨own, cond, live⟩ (peak := s.lens.peak) full
    have kept := countFlagged_kept s c (s.lens.count + 1) s.lens.peak
    exact ⟨_, (exec_testWindowComplete up).trans (congrArg _ ((testWindowComplete_eq current).1 measuring full)), ended.ends,
      ended.own, ended.others, kept.nodes, kept.points⟩
  · exact (exec_testWindowComplete up).trans (congrArg _ ((testWindowComplete_eq current).2 part))
  · obtain ⟨low, high⟩ := gainFor_nearest lit reference
    obtain ⟨above, within⟩ := gainResult_bright bright gain
    exact ⟨gainFor reference peak, low, high, above, within⟩

end Sys2Proof.Machine
end

section
/-! SUPPORT. The commands of the Light Qualifier's and the Current Confirmation Unit's events carry the frame that brings them (log
entry 3): when they act, and what they then do. -/

namespace Sys2Proof.Machine

open Sys2Proof.Safety

/-! ## When a frame brings its event -/

theorem acceptedFrame_live {s : State} {k : NodeKind} {source seq last : Byte} {payload : List Byte} {n : Nat} {contents : Contents}
    {timer : Timer} (source_ne : source ≠ 0) (admitted : s.admission k source payload = some (n, contents))
    (live : s.node n = some ⟨.live, some last, timer⟩) (new : 1 ≤ (seq - last).toNat) (near : (seq - last).toNat ≤ 128) :
    s.acceptedFrame k source seq payload = some (n, (seq - last).toNat - 1, contents) := by
  have apart : sequenceDifference seq last ≠ 0 := Nat.one_le_iff_ne_zero.1 new
  have gap : gapOf (sequenceDifference seq last) = (seq - last).toNat - 1 := if_pos near
  unfold State.acceptedFrame
  rw [if_neg source_ne, admitted]
  dsimp only
  rw [live]
  dsimp only
  rw [if_neg apart, gap]

/-- An event's command is its frame when the frame brings the event, and nothing otherwise. -/
theorem inFrame_live {s : State} {k : NodeKind} {source seq last : Byte} {payload : List Byte} {n : Nat} {contents : Contents}
    {timer : Timer} (source_ne : source ≠ 0) (admitted : s.admission k source payload = some (n, contents))
    (live : s.node n = some ⟨.live, some last, timer⟩) (new : 1 ≤ (seq - last).toNat) (near : (seq - last).toNat ≤ 128)
    (brings : Nat → Nat → Contents → Bool) :
    s.inFrame k source seq payload brings =
      if brings n ((seq - last).toNat - 1) contents then s.nodeFrame k source seq payload else s := by
  unfold State.inFrame
  rw [acceptedFrame_live source_ne admitted live new near]

theorem exec_flickerWindowClose {s : State} (up : Up s) (e : FrameEvent) :
    exec (.flickerWindowClose e) s = .next (s.flickerWindowClose e) :=
  congrArg Host.Outcome.next (outsideReset_up up fun u => u.flickerWindowClose e)

theorem exec_stretchExpiry {s : State} (up : Up s) (e : FrameEvent) : exec (.stretchExpiry e) s = .next (s.stretchExpiry e) :=
  congrArg Host.Outcome.next (outsideReset_up up fun u => u.stretchExpiry e)

/-- A frame with one sample closes a channel's window when the samples that it gives the channel fill the window. -/
theorem bringsWindowClose_single {s : State} {c n gap level : Nat} {flag : Bool} {r : ChannelRec} {w : FlickerWindow}
    (named : s.channelAt n 0 = some c) (own : s.channel c = some r) (opened : r.window = some w) :
    s.bringsWindowClose c n gap (.light [(level, flag)]) = true ↔
      (s.tables.channel c).window ≠ 0 ∧ 0 < s.samplesGiven c r.cond level gap ∧
        (s.tables.channel c).window.toNat ≤ w.elapsed + s.samplesGiven c r.cond level gap := by
  change _ ↔ (s.channelEntry c).window ≠ 0 ∧ _ ∧ (s.channelEntry c).window.toNat ≤ _
  unfold State.bringsWindowClose
  dsimp only
  rw [own]
  simp [opened, named]

/-- A frame with one sample ends a point's stretch by its gap or by its sample. -/
theorem bringsStretchEnd_single {s : State} {p n gap : Nat} {x : Phases} {r : PointRec} (named : s.pointAt n 0 = some p)
    (own : s.point p = some r) :
    s.bringsStretchEnd p n gap (.current [x]) = true ↔
      0 < r.stretch ∧ (r.stretch ≤ gap ∨ stretchAfter (s.tables.point p) (r.stretch - gap) x = 0) := by
  change _ ↔ 0 < r.stretch ∧ (_ ∨ stretchAfter (s.pointEntry p) _ x = 0)
  unfold State.bringsStretchEnd
  dsimp only
  rw [own]
  simp [named]

/-! ## FLICKER_WINDOW_CLOSE (R52, R56, R63) -/

section
variable {s : State} {source seq last : Byte} {payload : List Byte} {n c level : Nat} {flag : Bool} {timer : Timer}
  {r : ChannelRec} {w : FlickerWindow}
  (up : Up s) (source_ne : source ≠ 0) (admitted : s.admission .light source payload = some (n, .light [(level, flag)]))
  (live : s.node n = some ⟨.live, some last, timer⟩) (new : 1 ≤ (seq - last).toNat) (near : (seq - last).toNat ≤ 128)
  (named : s.channelAt n 0 = some c) (own : s.channel c = some r) (opened : r.window = some w)
include up source_ne admitted live new near named own opened

/-- The command is the LIGHT_SAMPLE when the samples given fill the window. -/
theorem exec_windowClose_fills {given : Nat} (gives : s.samplesGiven c r.cond level ((seq - last).toNat - 1) = given)
    (some_given : 0 < given) (on : (s.tables.channel c).window ≠ 0)
    (fills : (s.tables.channel c).window.toNat ≤ w.elapsed + given) :
    exec (.flickerWindowClose ⟨c, source, seq, payload⟩) s = exec (.lightSample source seq payload) s := by
  subst gives
  have brings := (bringsWindowClose_single (flag := flag) named own opened).2 ⟨on, some_given, fills⟩
  refine (exec_flickerWindowClose up _).trans ((congrArg Host.Outcome.next ?_).trans (exec_nodeCommand_up up .light source seq payload).symm)
  exact (inFrame_live source_ne admitted live new near _).trans (if_pos brings)

/-- The command does nothing with a frame whose samples do not fill the window. -/
theorem exec_windowClose_idle (idle : (s.tables.channel c).window ≠ 0 →
      0 < s.samplesGiven c r.cond level ((seq - last).toNat - 1) →
        w.elapsed + s.samplesGiven c r.cond level ((seq - last).toNat - 1) < (s.tables.channel c).window.toNat) :
    exec (.flickerWindowClose ⟨c, source, seq, payload⟩) s = .next s := by
  refine (exec_flickerWindowClose up _).trans (congrArg Host.Outcome.next ?_)
  refine (inFrame_live source_ne admitted live new near _).trans (if_neg fun brings => ?_)
  obtain ⟨on, some_given, fills⟩ := (bringsWindowClose_single named own opened).1 brings
  exact absurd (idle on some_given) (Nat.not_lt.2 fills)

end

theorem samplesGiven_data {s : State} {c level gap : Nat} {cond : ChannelCond} (h : cond = .normal ∨ cond = .dirty) :
    s.samplesGiven c cond level gap = gap + 1 := by
  obtain rfl | rfl := h <;> rfl

/-- Without a gap a channel is given its sample and no more (R52). -/
theorem given_noGap (r : ChannelRec) (level : Nat) : r.given level 0 = [.received level] := by
  unfold ChannelRec.given heldCount
  simp

theorem counted_le (e : ChannelEntry) (w : FlickerWindow) (crossing : Bool) : w.counted e crossing ≤ w.crossings + 1 := by
  unfold FlickerWindow.counted
  split <;> omega

/-- What a LIGHT_SAMPLE frame with one sample does for a channel that processes it (R52). -/
theorem lightSample_processed {s : State} {source seq last : Byte} {payload : List Byte} {n c level : Nat} {flag : Bool} {timer : Timer}
    {r : ChannelRec} (up : Up s) (source_ne : source ≠ 0)
    (admitted : s.admission .light source payload = some (n, .light [(level, flag)]))
    (live : s.node n = some ⟨.live, some last, timer⟩) (new : 1 ≤ (seq - last).toNat) (near : (seq - last).toNat ≤ 128)
    (named : s.channelAt n 0 = some c) (own : s.channel c = some r) (cond : r.cond = .normal ∨ r.cond = .dirty) :
    ∃ t, exec (.lightSample source seq payload) s = .next t ∧
      t.channel c = some (ChannelRec.processAll (s.tables.channel c) { r with raw := some level } (r.given level ((seq - last).toNat - 1))) ∧
      (∀ j, j ≠ c → t.channel j = s.channel j) ∧ KeptByLight (s.setNode n
        ⟨.live, some seq, .running (10 * (s.tables.node n).stale.toNat)⟩) t := by
  set heard := s.setNode n ⟨.live, some seq, .running (10 * (s.tables.node n).stale.toNat)⟩
  have own' : heard.channel c = some r := own
  have quiet : ∀ q, heard.channel c = some q → q.cond ≠ .testing := fun q is => by
    obtain rfl : q = r := Option.some.inj (is.symm.trans own')
    rintro testing
    rw [testing] at cond
    exact cond.elim nofun nofun
  exact ⟨_, exec_singleLight up source_ne admitted live new near named, channel_deliverLight own' cond _ _ _,
    fun j other => channel_deliverLight_other heard c level _ j flag other,
    ⟨deliverLight_kept heard c level flag _, deliverLight_lens quiet level _ flag⟩⟩

/-! ## STRETCH_EXPIRY (R72 to R74) -/

section
variable {s : State} {source seq last : Byte} {payload : List Byte} {n p : Nat} {x : Phases} {timer : Timer} {r : PointRec}
  (up : Up s) (source_ne : source ≠ 0) (admitted : s.admission .current source payload = some (n, .current [x]))
  (live : s.node n = some ⟨.live, some last, timer⟩) (new : 1 ≤ (seq - last).toNat) (near : (seq - last).toNat ≤ 128)
  (named : s.pointAt n 0 = some p) (own : s.point p = some r)
include up source_ne admitted live new near named own

theorem exec_stretchExpiry_ends (counts : 0 < r.stretch) (ends : r.stretch ≤ (seq - last).toNat - 1 ∨
      stretchAfter (s.tables.point p) (r.stretch - ((seq - last).toNat - 1)) x = 0) :
    exec (.stretchExpiry ⟨p, source, seq, payload⟩) s = exec (.currentSample source seq payload) s := by
  have brings := (bringsStretchEnd_single named own).2 ⟨counts, ends⟩
  refine (exec_stretchExpiry up _).trans ((congrArg Host.Outcome.next ?_).trans (exec_nodeCommand_up up .current source seq payload).symm)
  exact (inFrame_live source_ne admitted live new near _).trans (if_pos brings)

theorem exec_stretchExpiry_idle (goes_on : 0 < r.stretch → (seq - last).toNat - 1 < r.stretch ∧
      stretchAfter (s.tables.point p) (r.stretch - ((seq - last).toNat - 1)) x ≠ 0) :
    exec (.stretchExpiry ⟨p, source, seq, payload⟩) s = .next s := by
  refine (exec_stretchExpiry up _).trans (congrArg Host.Outcome.next ?_)
  refine (inFrame_live source_ne admitted live new near _).trans (if_neg fun brings => ?_)
  obtain ⟨counts, ends⟩ := (bringsStretchEnd_single named own).1 brings
  obtain ⟨beyond, above⟩ := goes_on counts
  exact ends.elim (Nat.not_le.2 beyond) above

end

/-- Only the commands that reach nodes, positions or a reset write a point's record. -/
theorem points_changedBy {s t : State} {c : Instr} (up : Up s) (run : exec c s = .next t) (changed : t.points ≠ s.points) :
    (∃ source seq payload, c = .lightSample source seq payload ∨ c = .currentSample source seq payload ∨
      c = .position source seq payload) ∨ (∃ bytes, c = .frameArrival bytes) ∨
    (∃ e, c = .flickerWindowClose e ∨ c = .stretchExpiry e) ∨ (∃ n, c = .staleTimerExpiry n) ∨
    c ∈ [Instr.validationComplete, .sendingComplete, .softResetTakesEffect] := by
  have further : reachesFurther c = true := by
    by_contra no
    exact changed (exec_calms (Bool.eq_false_iff.2 no) run).points
  cases c <;> cases further
  case frameArrival bytes => exact .inr (.inl ⟨bytes, rfl⟩)
  case lightSample source seq payload => exact .inl ⟨source, seq, payload, .inl rfl⟩
  case currentSample source seq payload => exact .inl ⟨source, seq, payload, .inr (.inl rfl)⟩
  case position source seq payload => exact .inl ⟨source, seq, payload, .inr (.inr rfl)⟩
  case flickerWindowClose e => exact .inr (.inr (.inl ⟨e, .inl rfl⟩))
  case stretchExpiry e => exact .inr (.inr (.inl ⟨e, .inr rfl⟩))
  case staleTimerExpiry n => exact .inr (.inr (.inr (.inl ⟨n, rfl⟩)))
  case validationComplete => exact .inr (.inr (.inr (.inr (by simp))))
  case sendingComplete => exact .inr (.inr (.inr (.inr (by simp))))
  case softResetTakesEffect => exact .inr (.inr (.inr (.inr (by simp))))
  case hardResetEnd mv =>
    have same : exec (.hardResetEnd mv) s = .next s := by
      refine congrArg Host.Outcome.next ?_
      unfold State.endHardReset
      rw [show s.hardReset = none from up]
    cases same.symm.trans run
    exact absurd rfl changed

theorem exec_persistenceTimerExpiry {s : State} (up : Up s) (i : Nat) :
    exec (.persistenceTimerExpiry i) s = .next (s.persistenceExpiry i) :=
  congrArg Host.Outcome.next (outsideReset_up up fun u => u.persistenceExpiry i)

/-- An alarm not yet made is made when the persistence timer expires (R94). -/
theorem persistenceExpiry_alarms {s : State} {i : Nat} (running : (s.sectionRec i).persistence.isRunning = true)
    (unmade : (s.sectionRec i).persistentMade = false) :
    s.persistenceExpiry i = (s.setSection i { s.sectionRec i with persistence := .stopped, persistentMade := true }).record
      { kind := .lightPersistent, category := .alarm, sect := some i, channel := s.lowestLit i } := by
  unfold State.persistenceExpiry
  dsimp only
  rw [if_pos running, if_neg (by rw [unmade]; exact Bool.false_ne_true)]
  rfl

/-- Settles O20: each event's command is its frame when the frame brings the event, and the frame's effect is that of O3, O19 and O21. -/
theorem pathEvents : Obligations.pathEvents := by
  intro s up
  refine ⟨?closes, ?aborts, ?stretch, fun c t => points_changedBy up, fun i _ running unmade =>
    (exec_persistenceTimerExpiry up i).trans (congrArg _ (persistenceExpiry_alarms running unmade))⟩
  case closes =>
    intro source seq hi lo last n c level flag timer r w source_ne admitted live new near named own cond opened on e command
    have gives : s.samplesGiven c r.cond level ((seq - last).toNat - 1) = (seq - last).toNat :=
      (samplesGiven_data cond).trans (Nat.sub_add_cancel new)
    refine ⟨fun short => exec_windowClose_idle up source_ne admitted live new near named own opened fun _ _ => by rw [gives]; exact short,
      fun fills => ?_⟩
    have same := exec_windowClose_fills up source_ne admitted live new near named own opened gives new on fills
    obtain ⟨t, executed, after, others, kept⟩ := lightSample_processed up source_ne admitted live new near named own cond
    refine ⟨t, _, same.trans executed, executed, after, others, kept.points, kept.positions, kept.lens, fun next => ?_⟩
    rw [next] at fills ⊢
    rw [given_noGap]
    obtain ⟨-, windows⟩ := process_windows (r := { r with raw := some level }) (x := .received level) on rfl
    obtain ⟨-, clears, reopens⟩ := windows w opened
    exact ⟨clears fills, reopens fills⟩
  case aborts =>
    intro source seq hi lo last n c level flag timer r w source_ne admitted live new near named own cond current active opened
      e ceiling command
    have gives : ∀ gap, s.samplesGiven c r.cond level gap = if ceiling < level then 1 else 0 := fun gap => by
      rw [cond]
      simp [State.samplesGiven, State.abortsTest, current, active, testCeiling, State.channelEntry, Config.levelMax, ceiling, e]
    refine ⟨fun idle => exec_windowClose_idle up source_ne admitted live new near named own opened fun on some_given => ?_,
      fun above on fills => ?_⟩
    · rw [gives] at some_given ⊢
      split at some_given
      next above =>
        rw [if_pos above]
        exact (idle.resolve_left (Nat.not_le.2 above)).resolve_left on
      next => exact absurd some_given (Nat.lt_irrefl 0)
    · have same := exec_windowClose_fills up source_ne admitted live new near named own opened
        ((gives _).trans (if_pos above)) Nat.one_pos on fills
      obtain ⟨-, aborted⟩ := lensTestSamples s source seq hi lo last n c level flag timer r up source_ne admitted live new near named
        own cond current active
      obtain ⟨t, executed, -, after, -⟩ := aborted above
      refine ⟨same, t, _, same.trans executed, after, rfl, fun few => ?_⟩
      exact process_window_clears (r := { r with raw := some level, cond := r.standing.cond }) on opened fills
        (Nat.lt_of_le_of_lt (counted_le _ _ _) few)
  case stretch =>
    intro source seq b1 b2 b3 b4 b5 b6 last n p x timer r source_ne admitted live new near named own e scale overPickup payload
      command
    have ends := exec_stretchExpiry_ends up source_ne admitted live new near named own
    have idle := exec_stretchExpiry_idle up source_ne admitted live new near named own
    refine ⟨fun zero => idle fun counts => absurd zero (Nat.pos_iff_ne_zero.1 counts), fun under short => idle fun _ => ?_,
      fun under counts spent => ?_, fun above loads within => idle fun _ => ?_, fun _ counts spent => ends counts (.inl (by omega))⟩
    · rw [stretchAfter_under (e := e) under]
      omega
    · have same := ends counts (.inr (by rw [stretchAfter_under (e := e) under]; omega))
      have seq_ne : seq ≠ last := fun eq => by
        subst eq
        simp at new
      obtain ⟨t, executed, -, after, others, -, channels, positions, lens⟩ :=
        currentSampleStretch.1 s source seq last payload n [x] timer up source_ne admitted live seq_ne
      obtain ⟨-, falls⟩ := after 0 x p r rfl named own
      refine ⟨t, same.trans executed, executed, (falls under).trans ?_, fun j other => others j fun k high => ?_, channels, positions, lens⟩
      · rw [if_pos near, show r.stretch - ((seq - last).toNat - 1) - 1 = 0 by omega]
      · obtain rfl : k = 0 := by simpa using high
        rw [named]
        exact fun same => other (Option.some.inj same).symm
    · rw [stretchAfter_over (e := e) above]
      refine ⟨by omega, fun zero => loads (BitVec.eq_of_toNat_eq zero)⟩

end Sys2Proof.Machine
end

section
/-! SUPPORT. What every operation but a release, an activation and a reset does for the trips: no order leaves the active trip list, no
lockout is dropped, and a section that trips has its orders (R89, R109, R110). -/

namespace Sys2Proof.Machine

open Sys2Proof.Safety

/-! ## Advances -/

/-- Every boundary breaker of a section, in the tables in force, that has a breaker record carries an order whose causes hold the
section (R89, R110). -/
def State.Demanded (s : State) (i : Nat) : Prop :=
  ∀ b ∈ (s.tables.sectionAt i).boundaryList, (s.position b).isSome = true →
    ∃ o ∈ s.trip.orders, o.breaker = b ∧ o.causes.getLsbD i = true

/-- Under the same tables and breaker records orders only join or gain, and each section that trips is demanded. -/
structure Orderly (s t : State) : Prop where
  active : t.agent.active = s.agent.active
  known : ∀ b, (t.position b).isSome = (s.position b).isSome
  grow : OrdersGrow s t
  demanded : ∀ i, (s.sectionRec i).state ≠ .tripped → (t.sectionRec i).state = .tripped → t.Demanded i

/-- An orderly change that drops no lockout. -/
structure Advances (s t : State) : Prop extends Orderly s t where
  locked : ∀ i, (s.sectionRec i).state = .tripped → (t.sectionRec i).state = .tripped

theorem State.Demanded.grown {s t : State} {i : Nat} (h : s.Demanded i) (active : t.agent.active = s.agent.active)
    (known : ∀ b, (t.position b).isSome = (s.position b).isSome) (grow : OrdersGrow s t) : t.Demanded i := by
  intro b listed record
  rw [State.tables_congr active] at listed
  rw [known] at record
  obtain ⟨o, mem, rfl, bit⟩ := h b listed record
  obtain ⟨o', mem', breaker, causes, -⟩ := grow o mem
  exact ⟨o', mem', breaker, bit_of_and causes bit⟩

theorem Orderly.trans {s t u : State} (h : Orderly s t) (k : Orderly t u) : Orderly s u := by
  refine ⟨k.active.trans h.active, fun b => (k.known b).trans (h.known b), h.grow.trans k.grow, fun i was is => ?_⟩
  by_cases between : (t.sectionRec i).state = .tripped
  · exact (h.demanded i was between).grown k.active k.known k.grow
  · exact k.demanded i between is

theorem Advances.trans {s t u : State} (h : Advances s t) (k : Advances t u) : Advances s u :=
  ⟨h.toOrderly.trans k.toOrderly, fun i was => k.locked i (h.locked i was)⟩

/-- A change beside the tables, the breaker records and the sections' states. -/
theorem Advances.of_same {s t : State} (active : t.agent.active = s.agent.active) (positions : t.trip.positions = s.trip.positions)
    (records : t.sections.records = s.sections.records) (grow : OrdersGrow s t) : Advances s t := by
  have same := State.sectionRec_congr records
  exact ⟨⟨active, fun b => by rw [State.position_congr positions], grow, fun i was is => absurd (same i ▸ is) was⟩,
    fun i was => (same i).symm ▸ was⟩

theorem Apart.advances {s t : State} (h : Apart s t) (grow : OrdersGrow s t) : Advances s t :=
  .of_same h.active h.positions (congrArg _ h.sections) grow

theorem Advances.refl (s : State) : Advances s s := (Apart.refl s).advances (.refl s)

theorem advances_foldl {f : State → α → State} (hf : ∀ s a, Advances s (f s a)) (l : List α) (s : State) :
    Advances s (l.foldl f s) := keeps_foldl Advances.refl Advances.trans hf l s

theorem record_advances (s : State) (b : RecordBody) : Advances s (s.record b) := (record_kept s b).apart.advances (.of_eq rfl)
theorem setLens_advances (s : State) (l : LensEngine) : Advances s (s.setLens l) := (setLens_apart s l).advances (.of_eq rfl)
theorem setLoop_advances (s : State) (l : LoopPort) : Advances s (s.setLoop l) :=
  (setLoop_keptByLoop s l).apart.advances (.of_eq rfl)
theorem disturb_advances (s : State) : Advances s s.disturb := (disturb_kept s).apart.advances (.of_eq (disturb_orders s))

/-- A change of the breaker, causes and depth of no order. -/
theorem updateOrder_advances (s : State) (b : Nat) (f : Order → Order)
    (same : ∀ o, (f o).breaker = o.breaker ∧ (f o).causes = o.causes ∧ (f o).depth = o.depth := by
      exact fun _ => ⟨rfl, rfl, rfl⟩) :
    Advances s (s.updateOrder b f) :=
  (updateOrder_kept s b f).apart.advances (updateOrder_grows s b f (grows_of_same same))

/-! ## Trip Dispatcher -/

theorem attemptSend_advances (s : State) (b : Nat) : Advances s (s.attemptSend b) :=
  (attemptSend_kept s b).apart.advances (attemptSend_grows s b)

theorem driveLine_advances (s : State) (b : Nat) : Advances s (s.driveLine b) :=
  (driveLine_kept s b).apart.advances (.of_eq (driveLine_orders s b))

theorem reconsiderLine_advances (s : State) (b : Nat) : Advances s (s.reconsiderLine b) :=
  (reconsiderLine_kept s b).apart.advances (.of_eq (reconsiderLine_aside s b).orders)

theorem failIfCut_advances (s : State) (b : Nat) : Advances s (s.failIfCut State.ask b) :=
  (failIfCut_kept ask_kept b s).apart.advances (failIfCut_grows ask_grows b s)

theorem enterCut_advances (s : State) (b : Nat) : Advances s (s.enterCut b) := by
  unfold State.enterCut
  split
  · split
    · exact failIfCut_advances s b
    · exact .refl s
  · exact .refl s

theorem withdrawTrip_advances (s : State) (b : Nat) : Advances s (s.withdrawTrip b) :=
  (setLoop_advances s _).trans (updateOrder_advances _ b _)

theorem openOrder_advances (s : State) (o : Order) : Advances s (s.openOrder o) :=
  ((updateOrder_advances s _ _).trans (record_advances _ _)).trans (reconsiderLine_advances _ _)

theorem reissueOrder_advances (s : State) (o : Order) (p : Position) : Advances s (s.reissueOrder o p) :=
  (((((updateOrder_advances s _ _).trans (record_advances _ _)).trans
    (updateOrder_advances _ _ _)).trans (attemptSend_advances _ _)).trans (driveLine_advances _ _)).trans
    (failIfCut_advances _ _)

theorem orderSeesPosition_advances (s : State) (b : Nat) (p : Position) : Advances s (s.orderSeesPosition b p) := by
  unfold State.orderSeesPosition
  split
  · exact .refl s
  · split
    · split
      · exact openOrder_advances s _
      · exact .refl s
    · split
      · exact reissueOrder_advances s _ p
      · exact .refl s

/-- A position is replaced in a breaker record that there is (R106, R107). -/
theorem setPosition_advances {s : State} {b : Nat} {old : Position} (own : s.position b = some old) (p : Position) :
    Advances s (s.setPosition b p) := by
  obtain ⟨-, -, -, known⟩ := (Turn.position p own).stands
  exact ⟨⟨rfl, known, .of_eq rfl, fun i was is => absurd is was⟩, fun _ was => was⟩

theorem deliverPosition_advances (s : State) (b : Nat) (p : Position) : Advances s (s.deliverPosition b p) := by
  unfold State.deliverPosition
  split
  · exact .refl s
  next old own =>
    split
    · exact .refl s
    · exact ((setPosition_advances own p).trans (record_advances _ _)).trans (orderSeesPosition_advances _ b p)

theorem positionUnknown_advances (s : State) (b : Nat) : Advances s (s.positionUnknown b) := by
  unfold State.positionUnknown
  split
  next old own => exact setPosition_advances own .unknown
  · exact .refl s

theorem resendExpiry_advances (s : State) (b : Nat) : Advances s (s.resendExpiry b) := by
  unfold State.resendExpiry
  split
  · split
    · exact (updateOrder_advances s b _).trans (attemptSend_advances _ b)
    · exact .refl s
  · exact .refl s

theorem failureExpiry_advances (s : State) (b : Nat) : Advances s (s.failureExpiry b) := by
  unfold State.failureExpiry
  split
  · split
    · exact (failOrder_kept b .timer s).apart.advances (failWith_grows ask_grows b .timer s)
    · exact .refl s
  · exact .refl s

/-! ## Section Evaluator -/

/-- The set of a section holds that section alone. -/
theorem sectionSet_getLsbD {i : Nat} (known : i < 16) (j : Nat) : (sectionSet i).getLsbD j = decide (j = i) := by
  rw [sectionSet, BitVec.getLsbD_ofNat, Nat.testBit_two_pow]
  by_cases same : i = j
  · subst same
    simp [known]
  · simp [same, Ne.symm same]

/-- A section's record is replaced by one that is TRIPPED only if the section was. -/
theorem setSection_orderly (s : State) (i : Nat) (r : SectionRec) (trips : r.state = .tripped → (s.sectionRec i).state = .tripped) :
    Orderly s (s.setSection i r) := by
  refine ⟨rfl, fun _ => rfl, .of_eq rfl, fun j was is => ?_⟩
  rw [State.sectionRec_setSection] at is
  split at is
  next here => exact absurd (here.1 ▸ trips is) was
  next => exact absurd is was

/-- A section's record is replaced by one that is TRIPPED exactly if the section was. -/
theorem setSection_advances (s : State) (i : Nat) (r : SectionRec) (same : r.state = .tripped ↔ (s.sectionRec i).state = .tripped) :
    Advances s (s.setSection i r) := by
  refine ⟨setSection_orderly s i r same.1, fun j was => ?_⟩
  rw [State.sectionRec_setSection]
  split
  next here => exact same.2 (here.1.symm ▸ was)
  next => exact was

/-- A section trips, and its boundary breakers are asked for (R89). -/
theorem enterTripped_advances (s : State) (i : Nat) (c : Cause) : Advances s (s.enterTripped i c) := by
  have kept := enterTripped_kept s i c
  have read := sectionRec_enterTripped s i
  refine ⟨⟨kept.active, fun b => by rw [State.position_congr kept.positions], ?_, fun j was is => ?_⟩, fun j was => ?_⟩
  · refine OrdersGrow.trans (.of_eq (disturb_orders (s.setSection i { s.sectionRec i with
      state := .tripped, persistence := .stopped, persistentMade := false, unconfirmableMade := false }))) ?_
    exact keeps_foldl OrdersGrow.refl OrdersGrow.trans (fun s b => ask_grows b (sectionSet i) 0 s) (s.sectionEntry i).boundaryList
      (State.record _ (s.trippedRecord i c))
  · rw [read, State.sectionRec_setSection] at is
    split at is
    next here =>
      obtain ⟨rfl, inTable⟩ := here
      intro b listed record
      rw [State.tables_congr kept.active] at listed
      rw [State.position_congr kept.positions] at record
      obtain ⟨o, mem, breaker, causes⟩ := askBoundary_demands i _ ((s.setSection i { s.sectionRec i with
        state := .tripped, persistence := .stopped, persistentMade := false, unconfirmableMade := false }).disturb.record
          (s.trippedRecord i c)) b listed (by
          rw [State.position_congr ((disturb_kept _).trans (record_kept _ _)).positions]
          exact record)
      exact ⟨o, mem, breaker, bit_of_and causes ((sectionSet_getLsbD inTable i).trans (decide_eq_true rfl))⟩
    next => exact absurd is was
  · rw [read, State.sectionRec_setSection]
    split
    · rfl
    · exact was

theorem alarmUnconfirmable_advances (s : State) (i : Nat) : Advances s (s.alarmUnconfirmable i) := by
  unfold State.alarmUnconfirmable
  dsimp only
  split
  · exact (record_advances s _).trans (setSection_advances _ i _ (by exact .rfl))
  · exact .refl s

/-- An evaluation, which no TRIPPED section has (R88, R89). -/
theorem evaluate_advances {s : State} {i : Nat} (untripped : (s.sectionRec i).state ≠ .tripped) (c : Cause) :
    Advances s (s.evaluate i c) := by
  have becomes : ∀ r : SectionRec, r.state ≠ .tripped → Advances s (s.setSection i r) := fun r quiet =>
    setSection_advances s i r ⟨fun e => absurd e quiet, fun e => absurd e untripped⟩
  unfold State.evaluate
  split
  · exact enterTripped_advances s i c
  · split
    · refine Advances.trans ?_ (alarmUnconfirmable_advances _ i)
      split
      · exact .refl s
      · exact (becomes _ (by exact nofun)).trans (disturb_advances _)
    · exact becomes _ (by exact nofun)

theorem reportTo_advances (s : State) (i : Nat) (c : Cause) : Advances s (s.reportTo i c) := by
  unfold State.reportTo
  split
  next acts => exact evaluate_advances (by rcases acts with e | e <;> rw [e] <;> exact nofun) c
  next => exact .refl s

theorem reportChannel_advances (s : State) (c : Nat) (v : ChannelView) : Advances s (s.reportChannel c v) := by
  have viewed : Advances s (s.setChannelView c v) := .of_same rfl rfl rfl (.of_eq rfl)
  unfold State.reportChannel
  dsimp only
  split
  · exact viewed.trans (reportTo_advances _ _ _)
  · exact viewed

theorem reportPoint_advances (s : State) (p : Nat) (v : PointView) : Advances s (s.reportPoint p v) := by
  have viewed : Advances s (s.setPointView p v) := .of_same rfl rfl rfl (.of_eq rfl)
  refine viewed.trans (advances_foldl (fun u i => ?_) _ _)
  split
  · exact reportTo_advances u i _
  · exact .refl u

/-- A recomputation can end a lockout, by R87, but trips no section without its orders. -/
theorem recompute_orderly (s : State) (i : Nat) : Orderly s (s.recompute i) := by
  unfold State.recompute
  dsimp only
  split
  · exact setSection_orderly s i _ (by exact nofun)
  · split
    next tripped => exact setSection_orderly s i _ fun _ => tripped
    next =>
      split
      · exact setSection_orderly s i _ (by exact nofun)
      · have armed : ∀ r : SectionRec, r.state = .armed → ((s.setSection i r).sectionRec i).state ≠ .tripped := fun r e => by
          rw [State.sectionRec_setSection]
          split
          · rw [e]; exact nofun
          · assumption
        exact (setSection_orderly s i _ (by exact nofun)).trans (evaluate_advances (armed _ rfl) .other).toOrderly

theorem persistenceExpiry_advances (s : State) (i : Nat) : Advances s (s.persistenceExpiry i) := by
  have set : Advances s (s.setSection i { s.sectionRec i with persistence := .stopped, persistentMade := true }) :=
    setSection_advances s i _ (by exact .rfl)
  unfold State.persistenceExpiry
  dsimp only
  split
  · split
    · exact set
    · exact set.trans (record_advances _ _)
  · exact .refl s

theorem onSection_advances {s : State} {i : Nat} {x : State × Result} (h : i < 16 → Advances s x.1) :
    Advances s (s.onSection i x).1 := by
  unfold State.onSection
  split
  · exact .refl s
  next taken =>
    refine h (Nat.lt_of_not_le fun beyond => ?_)
    unfold State.sectionCheck at taken
    split at taken <;> cases taken

theorem setBlockOn_advances (s : State) (i : Nat) : Advances s (s.setBlockOn i).1 := by
  refine onSection_advances fun _ => ?_
  have set : Advances s (s.setSection i { s.sectionRec i with
      block := true
      state := if (s.sectionRec i).state = .armed ∨ (s.sectionRec i).state = .light then .blocked else (s.sectionRec i).state
      persistence := if (s.sectionRec i).state = .light then .stopped else (s.sectionRec i).persistence }) := by
    refine setSection_advances s i _ ?_
    dsimp only
    split
    next acts => rcases acts with e | e <;> rw [e] <;> exact ⟨nofun, nofun⟩
    next => exact .rfl
  dsimp only
  split
  · exact set
  · exact set.trans (record_advances _ _)

theorem setBlockOff_advances (s : State) (i : Nat) : Advances s (s.setBlockOff i).1 := by
  refine onSection_advances fun known => ?_
  set r := s.sectionRec i with hr
  set u := s.setSection i { r with block := false, state := if r.state = .blocked then .armed else r.state } with hu
  have changed : Advances s u := by
    refine setSection_advances s i _ ?_
    dsimp only
    split
    next blocked => rw [← hr, blocked]; exact ⟨nofun, nofun⟩
    next => exact .rfl
  have own : r.state = .blocked → (u.sectionRec i).state ≠ .tripped := fun blocked => by
    rw [hu, sectionRec_setSection_own s known, if_pos blocked]
    exact nofun
  have evaluated : ∀ v, Advances s v → v.sections = u.sections →
      Advances s (if r.state = .blocked then v.evaluate i .other else v) := fun v advances sections => by
    split
    next blocked =>
      refine advances.trans (evaluate_advances ?_ .other)
      rw [State.sectionRec_congr (congrArg _ sections)]
      exact own blocked
    next => exact advances
  dsimp only
  by_cases flag : r.block = true
  · rw [if_pos flag]
    exact evaluated _ (changed.trans (record_advances u _)) rfl
  · rw [if_neg flag]
    exact evaluated u changed rfl

theorem setMaintenance_advances (s : State) (i : Nat) (on : Bool) : Advances s (s.setMaintenance i on).1 := by
  refine onSection_advances fun _ => ?_
  dsimp only
  split
  · exact .refl s
  · exact ((setSection_advances s i _ (by exact .rfl)).trans (record_advances _ _)).trans (reportTo_advances _ i _)

/-! ## Light Qualifier -/

theorem setChannel_advances (s : State) (c : Nat) (r : ChannelRec) : Advances s (s.setChannel c r) := .of_same rfl rfl rfl (.of_eq rfl)

theorem flickerRecord_advances (s : State) (c : Nat) (e : FlickerEvent) : Advances s (s.flickerRecord c e) := by
  cases e
  · exact .refl s
  · exact record_advances s _
  · exact record_advances s _

theorem changeChannel_advances (s : State) (c : Nat) (old new : ChannelRec) : Advances s (s.changeChannel c old new) := by
  unfold State.changeChannel
  dsimp only
  split
  · exact setChannel_advances s c new
  · exact (setChannel_advances s c new).trans (reportChannel_advances _ _ _)

theorem processSample_advances (s : State) (c : Nat) (x : Sample) : Advances s (s.processSample c x) := by
  unfold State.processSample
  split
  · exact .refl s
  · exact ((flickerRecord_advances s c _).trans (flickerRecord_advances _ c _)).trans (changeChannel_advances _ c _ _)

theorem processMany_advances (s : State) (c : Nat) (x : Sample) (n : Nat) : Advances s (s.processMany c x n) := by
  induction n generalizing s with
  | zero => exact .refl s
  | succ n ih => exact (processSample_advances s c x).trans (ih _)

theorem processDelivered_advances (s : State) (c level gap : Nat) : Advances s (s.processDelivered c level gap) := by
  unfold State.processDelivered
  split
  · exact .refl s
  · exact ((processMany_advances s c _ _).trans (processMany_advances _ c _ _)).trans (processSample_advances _ c _)

theorem channelStale_advances (s : State) (c : Nat) : Advances s (s.channelStale c) := by
  unfold State.channelStale
  split
  · exact changeChannel_advances s c _ _
  · exact .refl s

theorem channelLive_advances (s : State) (c : Nat) : Advances s (s.channelLive c) := by
  unfold State.channelLive
  split
  · split
    · exact changeChannel_advances s c _ _
    · exact .refl s
  · exact .refl s

theorem startTesting_advances (s : State) (c : Nat) : Advances s (s.startTesting c) := by
  unfold State.startTesting
  split
  · exact changeChannel_advances s c _ _
  · exact .refl s

theorem leaveTesting_advances (s : State) (c : Nat) (a : Option Nat) : Advances s (s.leaveTesting c a) := by
  unfold State.leaveTesting
  split
  · split
    · exact .refl s
    · split
      · dsimp only
        split
        · exact (changeChannel_advances s c _ _).trans (processSample_advances _ c _)
        · exact changeChannel_advances s c _ _
      · exact changeChannel_advances s c _ _
  · exact .refl s

/-! ## Current Confirmation Unit -/

theorem changePoint_advances (s : State) (p : Nat) (old new : PointRec) : Advances s (s.changePoint p old new) := by
  have set : Advances s (s.setPoint p new) := .of_same rfl rfl rfl (.of_eq rfl)
  unfold State.changePoint
  dsimp only
  split
  · exact set
  · exact set.trans (reportPoint_advances _ _ _)

theorem deliverPoint_advances (s : State) (p gap : Nat) (x : Phases) : Advances s (s.deliverPoint p gap x) := by
  have gapped : Advances s (s.pointGap p gap) := by
    unfold State.pointGap
    split
    · exact changePoint_advances s p _ _
    · exact .refl s
  refine gapped.trans (u := (s.pointGap p gap).pointSample p x) ?_
  unfold State.pointSample
  split
  · exact changePoint_advances _ p _ _
  · exact .refl _

theorem pointStale_advances (s : State) (p : Nat) : Advances s (s.pointStale p) := by
  unfold State.pointStale
  split
  · exact changePoint_advances s p _ _
  · exact .refl s

theorem pointLive_advances (s : State) (p : Nat) : Advances s (s.pointLive p) := by
  unfold State.pointLive
  split
  · split
    · exact changePoint_advances s p _ _
    · exact .refl s
  · exact .refl s

/-! ## Lens Check Engine -/

theorem pushControl_advances (s : State) (f : ControlFrame) : Advances s (s.pushControl f) :=
  (pushControl_kept s f).apart.advances (startIfIdle_grows (s.setLoop { s.loop with controlQ := s.loop.controlQ ++ [f] }))

theorem offerTest_advances (s : State) (f : TestFrame) : Advances s (s.offerTest f) := by
  unfold State.offerTest
  split
  · exact pushControl_advances s _
  · exact setLens_advances s _

theorem putOutLamp_advances (s : State) (c : Nat) : Advances s (s.putOutLamp c) := by
  unfold State.putOutLamp
  split
  · exact setLens_advances s _
  · split
    · exact .refl s
    · exact offerTest_advances s _

theorem endTest_advances (s : State) (c : Nat) (r : LensResult) (a : Option Nat) : Advances s (s.endTest c r a) :=
  (((record_advances s _).trans (leaveTesting_advances _ c a)).trans (putOutLamp_advances _ c)).trans (setLens_advances _ _)

theorem handOver_advances (s : State) (c gain : Nat) (st : Standing) : Advances s (s.handOver c gain st) := by
  unfold State.handOver
  split
  · exact setChannel_advances s c _
  · exact .refl s

theorem completeWindow_advances (s : State) (c : Nat) : Advances s (s.completeWindow c) := by
  unfold State.completeWindow
  split
  · exact .refl s
  · exact (handOver_advances s c _ _).trans (endTest_advances _ c _ _)

theorem countFlagged_advances (s : State) (c n p : Nat) : Advances s (s.countFlagged c n p) := by
  unfold State.countFlagged
  dsimp only
  split
  · exact (setLens_advances s _).trans (completeWindow_advances _ c)
  · exact setLens_advances s _

theorem lensSample_advances (s : State) (c level : Nat) (flag : Bool) : Advances s (s.lensSample c level flag) := by
  unfold State.lensSample
  split
  · exact .refl s
  · split
    · exact endTest_advances s c _ _
    · split
      · exact countFlagged_advances s c _ _
      · exact endTest_advances s c _ _
      · exact countFlagged_advances s c _ _
      · exact .refl s

theorem deliverLight_advances (s : State) (c level : Nat) (flag : Bool) (gap : Nat) :
    Advances s (s.deliverLight c level flag gap) := by
  unfold State.deliverLight
  split
  · exact .refl s
  · dsimp only
    split
    · exact (setChannel_advances s c _).trans (processDelivered_advances _ c _ _)
    · exact (setChannel_advances s c _).trans (processDelivered_advances _ c _ _)
    · exact (setChannel_advances s c _).trans (lensSample_advances _ c _ _)
    · exact setChannel_advances s c _

theorem startWaitExpiry_advances (s : State) : Advances s s.startWaitExpiry := by
  unfold State.startWaitExpiry
  split
  · exact endTest_advances s _ _ _
  · exact .refl s

theorem testWindowComplete_advances (s : State) : Advances s s.testWindowComplete := by
  unfold State.testWindowComplete
  split
  · split
    · exact countFlagged_advances s _ _ _
    · exact .refl s
  · exact .refl s

theorem lensNodeStale_advances (s : State) (n : Nat) : Advances s (s.lensNodeStale n) := by
  unfold State.lensNodeStale
  split
  · exact .refl s
  · exact .refl s
  · split
    · exact endTest_advances s _ _ _
    · exact .refl s

theorem testLens_advances (s : State) (c : Nat) : Advances s (s.testLens c).1 := by
  unfold State.testLens
  split
  · exact ((((setLens_advances s _).trans (disturb_advances _)).trans (startTesting_advances _ c)).trans
      (offerTest_advances _ _)).trans (setLens_advances _ _)
  · exact .refl s

end Sys2Proof.Machine
end

section
/-! SUPPORT. What one command is for the trips: an advance, or a release, an activation or a reset; and the obligations that follow from
it (R82, R89, R100, R110). -/

namespace Sys2Proof.Machine

open Sys2Proof.Safety

/-! ## Loop Port -/

theorem pushRoutine_advances (s : State) (r : Response) : Advances s (s.pushRoutine r) :=
  (pushRoutine_kept s r).apart.advances (startIfIdle_grows (s.setLoop { s.loop with routineQ := s.loop.routineQ ++ [r] }))

theorem queueWaitingClaim_advances (s : State) : Advances s s.queueWaitingClaim := by
  unfold State.queueWaitingClaim
  split
  · exact (setLoop_advances s _).trans (pushControl_advances _ _)
  · exact .refl s

theorem offerHeldTests_advances (s : State) (n : Nat) : Advances s (s.offerHeldTests n) := by
  induction n generalizing s with
  | zero => exact .refl s
  | succ n ih =>
    unfold State.offerHeldTests
    split
    · exact .refl s
    · split
      · exact ((setLens_advances s _).trans (pushControl_advances _ _)).trans (ih _)
      · exact .refl s

theorem queueHeldTests_advances (s : State) : Advances s s.queueHeldTests := by
  unfold State.queueHeldTests
  split
  · exact .refl s
  · exact offerHeldTests_advances s _

theorem setHeld_advances (s : State) (held : List Response) :
    Advances s { s with agent := { s.agent with held := held } } := .of_same rfl rfl rfl (.of_eq rfl)

theorem offerHeldResponses_advances (s : State) (n : Nat) : Advances s (s.offerHeldResponses n) := by
  induction n generalizing s with
  | zero => exact .refl s
  | succ n ih =>
    unfold State.offerHeldResponses
    split
    · exact .refl s
    · split
      · exact ((setHeld_advances s _).trans (pushRoutine_advances _ _)).trans (ih _)
      · exact .refl s

theorem tellControlRoom_advances (s : State) : Advances s s.tellControlRoom :=
  (queueWaitingClaim_advances s).trans (queueHeldTests_advances _)

theorem settleRoom_advances (s : State) : Advances s s.settleRoom :=
  (tellControlRoom_advances s).trans (offerHeldResponses_advances _ _)

theorem enterClaiming_advances (s : State) : Advances s s.enterClaiming :=
  (setLoop_advances s _).trans (queueWaitingClaim_advances _)

theorem recomputeCut_advances (s : State) : Advances s s.recomputeCut :=
  ((setLoop_advances s _).trans (advances_foldl enterCut_advances _ _)).trans (advances_foldl withdrawTrip_advances _ _)

theorem queueOrSkip_advances (s : State) (f : ControlFrame) : Advances s (s.queueOrSkip f) := by
  unfold State.queueOrSkip
  split
  · exact pushControl_advances s f
  · exact .refl s

theorem enterOpen_advances (s : State) (c : OpenCause) : Advances s (s.enterOpen c) :=
  (((((setLoop_advances s _).trans (tellControlRoom_advances _)).trans (recomputeCut_advances _)).trans (record_advances _ _)).trans
    (queueOrSkip_advances _ _)).trans (setLoop_advances _ _)

theorem supervisionReturns_advances (s : State) : Advances s s.supervisionReturns := by
  unfold State.supervisionReturns
  split
  · exact setLoop_advances s _
  · exact .refl s

theorem beaconReturns_advances (s : State) : Advances s s.beaconReturns := by
  unfold State.beaconReturns
  split
  · exact (enterClaiming_advances s).trans (settleRoom_advances _)
  · exact .refl s

theorem claimReturns_advances (s : State) (seq : Byte) (p : List Byte) : Advances s (s.claimReturns seq p) := by
  unfold State.claimReturns
  split
  · exact .refl s
  · split
    · exact ((setLoop_advances s _).trans (record_advances _ _)).trans (setLoop_advances _ _)
    · exact .refl s

theorem claimExpiry_advances (s : State) : Advances s s.claimExpiry := by
  unfold State.claimExpiry
  split
  · exact enterOpen_advances s _
  · exact .refl s

theorem supervisionExpiry_advances (s : State) : Advances s s.supervisionExpiry := by
  unfold State.supervisionExpiry
  split
  · exact enterOpen_advances s _
  · exact .refl s

theorem supervisionSendExpiry_advances (s : State) : Advances s s.supervisionSendExpiry := by
  unfold State.supervisionSendExpiry
  split
  · exact (setLoop_advances s _).trans (queueOrSkip_advances _ _)
  · exact .refl s

theorem beaconExpiry_advances (s : State) : Advances s s.beaconExpiry := by
  unfold State.beaconExpiry
  split
  · exact (setLoop_advances s _).trans (queueOrSkip_advances _ _)
  · exact .refl s

theorem loopActivation_advances (s : State) : Advances s s.loopActivation := by
  unfold State.loopActivation
  split
  · dsimp only
    split
    · exact setLoop_advances s _
    · exact (setLoop_advances s _).trans (record_advances _ _)
  · exact recomputeCut_advances s
  · exact .refl s

theorem claimSent_advances (s : State) (x : Sending) : Advances s (s.claimSent x) := by
  unfold State.claimSent
  split
  · exact setLoop_advances s _
  · exact .refl s

theorem startNext_advances (s : State) : Advances s s.startNext := (startNext_kept s).apart.advances (startNext_grows s)

/-! ## Node Admission -/

theorem setNode_advances (s : State) (n : Nat) (r : NodeRec) : Advances s (s.setNode n r) := .of_same rfl rfl rfl (.of_eq rfl)

theorem deliver_advances (s : State) (n gap : Nat) (c : Contents) : Advances s (s.deliver n gap c) := by
  cases c with
  | light xs => exact deliverAll_keeps Advances.refl Advances.trans (fun s c x => deliverLight_advances s c _ _ _) 0 xs s
  | current xs => exact deliverAll_keeps Advances.refl Advances.trans (fun s p x => deliverPoint_advances s p _ x) 0 xs s
  | positions xs => exact deliverAll_keeps Advances.refl Advances.trans (fun s b x => deliverPosition_advances s b x) 0 xs s

theorem tellStale_advances (n : Nat) (s : State) : Advances s (State.tellStale n s) := by
  unfold State.tellStale
  exact (((advances_foldl channelStale_advances (s.channelsOfNode n) s).trans (advances_foldl pointStale_advances _ _)).trans
    (advances_foldl positionUnknown_advances _ _)).trans (lensNodeStale_advances _ n)

theorem tellLive_advances (n : Nat) (s : State) : Advances s (State.tellLive n s) :=
  (advances_foldl channelLive_advances _ s).trans (advances_foldl pointLive_advances _ _)

theorem tellNeighbours_advances {tell : State → State} (h : ∀ s, Advances s (tell s)) (s : State) :
    Advances s (s.tellNeighbours tell) := by
  have drawn : Advances s { s with draws := s.draws + 1 } := .of_same rfl rfl rfl (.of_eq rfl)
  unfold State.tellNeighbours
  split
  · dsimp only
    split
    · exact (drawn.trans (recomputeCut_advances _)).trans (h _)
    · exact (drawn.trans (h _)).trans (recomputeCut_advances _)
  · exact h s

theorem becomeLive_advances (s : State) (n : Nat) (r : NodeRec) (seq : Byte) : Advances s (s.becomeLive n r seq) :=
  (((setNode_advances s n _).trans (record_advances _ _)).trans (tellNeighbours_advances (tellLive_advances n) _)).trans
    (setNode_advances _ n _)

theorem stayLive_advances (s : State) (n : Nat) (seq : Byte) (d : Nat) : Advances s (s.stayLive n seq d) := by
  unfold State.stayLive
  dsimp only
  split
  · exact (setNode_advances s n _).trans (record_advances _ _)
  · exact setNode_advances s n _

theorem nodeFrame_advances (s : State) (k : NodeKind) (source seq : Byte) (p : List Byte) :
    Advances s (s.nodeFrame k source seq p) := by
  unfold State.nodeFrame
  split
  · exact .refl s
  · split
    · exact .refl s
    · split
      · exact .refl s
      · unfold State.acceptFrame
        split
        · dsimp only
          split
          · exact .refl s
          · exact (stayLive_advances s _ _ _).trans (deliver_advances _ _ _ _)
        · exact (becomeLive_advances s _ _ _).trans (deliver_advances _ _ _ _)

theorem inFrame_advances (s : State) (k : NodeKind) (source seq : Byte) (p : List Byte) (brings : Nat → Nat → Contents → Bool) :
    Advances s (s.inFrame k source seq p brings) := by
  rcases inFrame_cases s k source seq p brings with h | h <;> rw [h]
  · exact nodeFrame_advances s k source seq p
  · exact .refl s

theorem staleExpiry_advances (s : State) (n : Nat) : Advances s (s.staleExpiry n) := by
  unfold State.staleExpiry
  split
  · split
    · exact ((setNode_advances s n _).trans (record_advances _ _)).trans (tellNeighbours_advances (tellStale_advances n) _)
    · exact .refl s
  · exact .refl s

/-! ## Management Agent -/

theorem respond_advances (s : State) (r : Response) : Advances s (s.respond r) := by
  unfold State.respond
  split
  · exact pushRoutine_advances s r
  · exact setHeld_advances s _

theorem serveSetMaintenance_advances (ps : List Byte) (s : State) : Advances s (serveSetMaintenance ps s).1 := by
  unfold serveSetMaintenance
  split
  · split
    · exact setMaintenance_advances s _ _
    · exact .refl s
  · exact .refl s

theorem serveSetBlock_advances (ps : List Byte) (s : State) : Advances s (serveSetBlock ps s).1 := by
  unfold serveSetBlock
  split
  · split
    · exact setBlockOn_advances s _
    · exact setBlockOff_advances s _
    · exact .refl s
  · exact .refl s

theorem serveTestLens_advances (ps : List Byte) (s : State) : Advances s (serveTestLens ps s).1 := by
  unfold serveTestLens
  split
  · exact testLens_advances s _
  · exact .refl s

theorem serveReclaim_advances (ps : List Byte) (s : State) : Advances s (serveReclaim ps s).1 := by
  unfold serveReclaim
  split
  · exact (enterClaiming_advances s).trans (settleRoom_advances _)
  · exact .refl s

theorem serveActivate_trip (source tag : Byte) (ps : List Byte) (s : State) : (serveActivate source tag ps s).1.trip = s.trip := by
  unfold serveActivate
  repeat' split
  all_goals rfl

theorem serveSoftReset_trip (ps : List Byte) (s : State) : (serveSoftReset ps s).1.trip = s.trip := by
  unfold serveSoftReset
  split <;> rfl

/-- Every request but a RELEASE advances. -/
theorem serveCode_advances {code : Byte} (h : code ≠ 0x20) (source tag : Byte) (ps : List Byte) (s : State) :
    Advances s (serveCode code source tag ps s).1 := by
  have reading := serveReading_same code source tag ps s
  have aside : ∀ {t : State}, Apart s t → t.trip.orders = s.trip.orders → Advances s t := fun apart same => apart.advances (.of_eq same)
  unfold serveCode at reading ⊢
  split
  case h_2 => exact aside (serveReadEvents_apart ps s) (serveReadEvents_aside ps s).orders
  case h_6 => exact aside (serveWriteShadow_apart ps s) (serveWriteShadow_aside ps s).orders
  case h_7 => exact aside (serveDiscardShadow_apart ps s) (serveDiscardShadow_aside ps s).orders
  case h_8 => exact aside (serveActivate_apart source tag ps s) (congrArg _ (serveActivate_trip source tag ps s))
  case h_9 named =>
    have named : RequestCode.release.code = code := by simpa using List.find?_some named
    exact absurd named.symm h
  case h_10 => exact serveSetMaintenance_advances ps s
  case h_11 => exact serveSetBlock_advances ps s
  case h_12 => exact serveTestLens_advances ps s
  case h_13 => exact serveReclaim_advances ps s
  case h_14 => exact aside (serveSoftReset_apart ps s) (congrArg _ (serveSoftReset_trip ps s))
  all_goals
    rename_i e
    rw [e] at reading
    rw [reading (by simp)]
    exact .refl s

/-- A request is discarded, or served and answered at once or later (R167). -/
theorem takeRequest_cases (s : State) (source tag code : Byte) (serve : State → Served) :
    s.takeRequest source tag code serve = s ∨ (∃ r, s.takeRequest source tag code serve = (serve s).1.respond r) ∨
      s.takeRequest source tag code serve = (serve s).1 := by
  unfold State.takeRequest
  split
  · exact .inl rfl
  · split
    next e => exact .inr (.inl ⟨_, by rw [e]⟩)
    next e => exact .inr (.inr (by rw [e]))

theorem takeRequest_advances {code : Byte} (h : code ≠ 0x20) (source tag : Byte) (ps : List Byte) (s : State) :
    Advances s (s.takeRequest source tag code (serveCode code source tag ps)) := by
  have serves := serveCode_advances h source tag ps s
  rcases takeRequest_cases s source tag code (serveCode code source tag ps) with e | ⟨r, e⟩ | e <;> rw [e]
  · exact .refl s
  · exact serves.trans (respond_advances _ r)
  · exact serves

/-- A RELEASE that is served releases the section that it names. -/
theorem takeRelease_sections (source tag : Byte) (ps : List Byte) (s : State) :
    (s.takeRequest source tag 0x20 (serveCode 0x20 source tag ps)).sections = s.sections ∨
      ∃ sect : Byte, ps = [sect] ∧
        (s.takeRequest source tag 0x20 (serveCode 0x20 source tag ps)).sections = (s.release sect.toNat).1.sections := by
  have serves : (serveCode 0x20 source tag ps s).1.sections = s.sections ∨
      ∃ sect : Byte, ps = [sect] ∧ (serveCode 0x20 source tag ps s).1.sections = (s.release sect.toNat).1.sections := by
    change (serveRelease ps s).1.sections = _ ∨ ∃ sect : Byte, ps = [sect] ∧ (serveRelease ps s).1.sections = _
    unfold serveRelease
    split
    next sect => exact .inr ⟨sect, rfl, rfl⟩
    next => exact .inl rfl
  rcases takeRequest_cases s source tag 0x20 (serveCode 0x20 source tag ps) with e | ⟨r, e⟩ | e <;> rw [e]
  · exact .inl rfl
  · rw [(respond_kept _ r).sections]
    exact serves
  · exact serves

/-! ## An activation (R161) -/

/-- From the new tables on, an activation trips no section without its orders. -/
theorem swap_orderly (s : State) : Orderly s.newTables s.swap := by
  have recomputed : ∀ u : State, Orderly u u.recomputeSections := fun u => by
    obtain ⟨-, -, -, trip, -, -, -, agent, records⟩ := refreshView_same u
    have viewed : Advances u u.refreshView :=
      .of_same (congrArg _ agent) (congrArg _ trip) records (.of_eq (congrArg _ trip))
    exact viewed.toOrderly.trans (keeps_foldl (fun v => (Advances.refl v).toOrderly) Orderly.trans recompute_orderly _ _)
  have written : ∀ u : State, Advances u u.beginStoreWrite := fun u => .of_same rfl rfl rfl (.of_eq rfl)
  rw [swap_eq]
  exact ((loopActivation_advances _).toOrderly.trans (recomputed _)).trans (written _).toOrderly

theorem endValidation_advances (s : State) : Advances s s.endValidation := .of_same rfl rfl rfl (.of_eq rfl)

/-! ## One command -/

/-- The command can carry a RELEASE of the section. -/
def CanRelease : Instr → Nat → Prop
  | .release _ _ ps, j => ∃ sect : Byte, ps = [sect] ∧ sect.toNat = j
  | .unknownRequestCode _ _ code _, _ => code = 0x20
  | .frameArrival _, _ => True
  | _, _ => False

/-- What a command is for the sections and their orders: an advance, or one of the events that can drop orders or lockouts. -/
inductive Course (c : Instr) (s t : State) : Prop
  | advance (h : Advances s t)
  | still (sections : t.sections = s.sections)
  | release (j : Nat) (named : CanRelease c j) (sections : t.sections = (s.release j).1.sections)
  | activation (validating : s.agent.state = .validating) (calm : s.agent.disturbed = false) (h : Orderly s.newTables t)
  | softReset (sections : t.sections = s.softBase.sections)
  | hardReset (mv : Nat) (ends : c = .hardResetEnd mv) (r : HardReset) (sections : t.sections = (s.hardBase r mv).sections)

theorem outsideReset_course {c : Instr} {f : State → State} {s : State} (h : Course c s (f s)) : Course c s (s.outsideReset f) := by
  unfold State.outsideReset
  split
  · exact .advance (.refl s)
  · exact h

/-- A request, by its code. -/
theorem takeRequest_course {c : Instr} {code : Byte} {ps : List Byte}
    (named : code = 0x20 → ∀ sect : Byte, ps = [sect] → CanRelease c sect.toNat) (source tag : Byte) (s : State) :
    Course c s (s.takeRequest source tag code (serveCode code source tag ps)) := by
  by_cases release : code = 0x20
  · subst release
    rcases takeRelease_sections source tag ps s with same | ⟨sect, one, sections⟩
    · exact .still same
    · exact .release sect.toNat (named rfl sect one) sections
  · exact .advance (takeRequest_advances release source tag ps s)

theorem receive_course (s : State) (bytes : List Byte) : Course (.frameArrival bytes) s (s.receive bytes) := by
  unfold State.receive State.goodFrame
  split
  · split
    · split
      · exact .advance (supervisionReturns_advances s)
      · exact .advance (beaconReturns_advances s)
      · exact .advance (claimReturns_advances s _ _)
      · exact .advance (.refl s)
    · split
      · exact .advance (.refl s)
      · split
        · exact .advance (nodeFrame_advances s _ _ _ _)
        · exact .advance (nodeFrame_advances s _ _ _ _)
        · exact .advance (nodeFrame_advances s _ _ _ _)
        · unfold State.requestFrame
          split
          · exact takeRequest_course (c := .frameArrival bytes) (fun _ _ _ => trivial) _ _ s
          · exact .advance (.refl s)
        · exact .advance (.refl s)
  · exact .advance (.refl s)

theorem performSoftReset_course (c : Instr) (s : State) : Course c s s.performSoftReset :=
  .softReset (enterClaiming_kept s.softBase).sections

theorem sendingCompletes_course (c : Instr) (s : State) : Course c s s.sendingCompletes := by
  unfold State.sendingCompletes
  split
  · exact .advance (.refl s)
  · split
    · exact performSoftReset_course c s
    · exact .advance (((claimSent_advances s _).trans (startNext_advances _)).trans (settleRoom_advances _))

theorem validationCompletes_course (c : Instr) (s : State) : Course c s s.validationCompletes := by
  have ends : ∀ (u : State) (r : Response), Advances u (u.endValidation.respond r) := fun u r =>
    (endValidation_advances u).trans (respond_advances _ r)
  unfold State.validationCompletes
  split
  next validating _ =>
    split
    · exact .advance (ends s _)
    next calm =>
      split
      · exact .advance (ends s _)
      · exact .activation validating (by simpa using calm) ((swap_orderly s).trans (ends _ _).toOrderly)
  next => exact .advance (.refl s)

theorem endHardReset_course (mv : Nat) (s : State) : Course (.hardResetEnd mv) s (s.endHardReset mv) := by
  unfold State.endHardReset
  split
  next r _ =>
    split
    · exact .hardReset mv rfl r (enterClaiming_kept (s.hardBase r mv)).sections
    · exact .advance (.refl s)
  · exact .advance (.refl s)

/-- What every command is for the sections and their orders. -/
theorem exec_course {c : Instr} {s t : State} (run : exec c s = .next t) : Course c s t := by
  have outside : ∀ {f : State → State}, Course c s (f s) → Course c s (s.outsideReset f) := outsideReset_course
  have advances : ∀ {f : State → State}, Advances s (f s) → Course c s (s.outsideReset f) := fun h => outside (.advance h)
  have apart : ∀ {f : State → State}, Apart s (f s) → (f s).trip.orders = s.trip.orders → Course c s (s.outsideReset f) :=
    fun h same => advances (h.advances (.of_eq same))
  have requests : ∀ {source tag code : Byte} {ps : List Byte}, code ≠ 0x20 → Course c s
      (s.outsideReset fun s => s.takeRequest source tag code (serveCode code source tag ps)) := fun other =>
    advances (takeRequest_advances other _ _ _ s)
  cases c <;> cases run
  case frameArrival bytes => exact outside (receive_course s bytes)
  case supervision => exact advances (supervisionReturns_advances s)
  case beacon => exact advances (beaconReturns_advances s)
  case claim seq payload => exact advances (claimReturns_advances s seq payload)
  case claimTimerExpiry => exact advances (claimExpiry_advances s)
  case supervisionSendTimerExpiry => exact advances (supervisionSendExpiry_advances s)
  case supervisionTimerExpiry => exact advances (supervisionExpiry_advances s)
  case beaconTimerExpiry => exact advances (beaconExpiry_advances s)
  case sendingComplete => exact outside (sendingCompletes_course _ s)
  case claimQueuedAtRoom => exact advances (queueWaitingClaim_advances s)
  case heldTestFrameQueued => exact advances (queueHeldTests_advances s)
  case heldResponseQueued => exact advances (offerHeldResponses_advances s _)
  case lightSample source seq payload => exact advances (nodeFrame_advances s .light source seq payload)
  case currentSample source seq payload => exact advances (nodeFrame_advances s .current source seq payload)
  case position source seq payload => exact advances (nodeFrame_advances s .breaker source seq payload)
  case staleTimerExpiry n => exact advances (staleExpiry_advances s n)
  case flickerWindowClose e => exact advances (inFrame_advances s _ _ _ _ _)
  case stretchExpiry e => exact advances (inFrame_advances s _ _ _ _ _)
  case persistenceTimerExpiry j => exact advances (persistenceExpiry_advances s j)
  case resendTimerExpiry b => exact advances (resendExpiry_advances s b)
  case failureTimerExpiry b => exact advances (failureExpiry_advances s b)
  case minimumPulseTimerExpiry l => exact apart (pulseExpiry_kept s l).apart (pulseExpiry_aside s l).orders
  case startWaitTimerExpiry => exact advances (startWaitExpiry_advances s)
  case testWindowComplete => exact advances (testWindowComplete_advances s)
  case validationComplete => exact outside (validationCompletes_course _ s)
  case storeWriteComplete agrees => exact outside (.still (storeComplete_apart s agrees).sections)
  case softResetTakesEffect =>
    refine outside ?_
    split
    · exact performSoftReset_course _ s
    · exact .advance (.refl s)
  case supplyWarningFall => exact outside (.still (warningFall_apart s).sections)
  case supplyWarningRise => exact outside (.still (warningRise_apart s).sections)
  case supplyDipReset => exact .still (beginHardReset_apart s true).sections
  case resetnLow => exact .still (beginHardReset_apart s false).sections
  case hardResetEnd mv => exact endHardReset_course mv s
  case supplyBelowRetention => exact .still (loseRetention_apart s).sections
  case release source tag ps =>
    exact outside (takeRequest_course (c := .release source tag ps) (fun _ sect one => ⟨sect, one, rfl⟩) source tag s)
  case unknownRequestCode source tag code ps =>
    exact outside (takeRequest_course (c := .unknownRequestCode source tag code ps) (fun known _ _ => known) source tag s)
  case readStatus => exact requests (by decide)
  case readEvents => exact requests (by decide)
  case readChannel => exact requests (by decide)
  case readOrders => exact requests (by decide)
  case readTable => exact requests (by decide)
  case writeShadow => exact requests (by decide)
  case discardShadow => exact requests (by decide)
  case activate => exact requests (by decide)
  case setMaintenance => exact requests (by decide)
  case setBlockOn source tag sect => exact requests (code := 0x22) (ps := [sect, 1]) (by decide)
  case setBlockOff source tag sect => exact requests (code := 0x22) (ps := [sect, 0]) (by decide)
  case testLens => exact requests (by decide)
  case reclaim => exact requests (by decide)
  case softReset => exact requests (by decide)

/-! ## What a command does to a section -/

/-- A release trips no section (R100). -/
theorem release_untripped (s : State) (i j : Nat) (was : (s.sectionRec i).state ≠ .tripped) :
    ((s.release j).1.sectionRec i).state ≠ .tripped := by
  have records := State.sectionRec_congr (congrArg SectionEvaluator.records (removeSection_kept s j).sections)
  unfold State.release State.onSection
  split
  · exact was
  · dsimp only
    split
    · change (State.sectionRec (State.setSection _ _ _) i).state ≠ _
      rw [State.sectionRec_setSection, records]
      split
      · dsimp only
        split <;> exact nofun
      · exact was
    · exact was

/-- Settles O28: an advance demands what it trips, and of the other events only an activation trips a section, from the new tables on. -/
theorem tripDemandsEveryBoundaryBreaker : Obligations.tripDemandsEveryBoundaryBreaker := by
  intro c s t i b run inTable was is listed record
  have read : ∀ {u : State}, t.sections = u.sections → (u.sectionRec i).state = .tripped := fun sections =>
    State.sectionRec_congr (congrArg SectionEvaluator.records sections) i ▸ is
  suffices t.Demanded i from this b listed record
  cases exec_course run with
  | advance h => exact h.demanded i was is
  | still sections => exact absurd (read sections) was
  | release j named sections => exact absurd (read sections) (release_untripped s i j was)
  | activation validating calm h =>
    exact h.demanded i (by rwa [State.sectionRec_congr (congrArg SectionEvaluator.records (newTables_sections s))]) is
  | softReset sections =>
    have reset := read sections
    rw [softBase_sectionRec s inTable, if_neg was] at reset
    dsimp only at reset
    split at reset
    · cases reset
    · split at reset <;> cases reset
  | hardReset mv ends r sections =>
    have reset := read sections
    rw [hardBase_sectionRec s r mv inTable] at reset
    dsimp only at reset
    split at reset <;> cases reset

/-- Settles O29: an advance drops no lockout, a release leaves the other sections, a soft reset keeps what is TRIPPED, and an undisturbed
validation finds no section TRIPPED. -/
theorem lockoutHolds : Obligations.lockoutHolds := by
  intro c s t i run inTable quiet locked noEnd noFrame unknown other
  have read : ∀ {u : State}, t.sections = u.sections → (u.sectionRec i).state = .tripped → (t.sectionRec i).state = .tripped :=
    fun sections held => State.sectionRec_congr (congrArg SectionEvaluator.records sections) i ▸ held
  cases exec_course run with
  | advance h => exact h.locked i locked
  | still sections => exact read sections locked
  | release j named sections =>
    have another : j ≠ i := by
      cases c <;> try exact named.elim
      case frameArrival bytes => exact absurd rfl (noFrame bytes)
      case release source tag ps =>
        obtain ⟨sect, rfl, rfl⟩ := named
        exact other source tag sect rfl
      case unknownRequestCode source tag code ps =>
        obtain rfl : code = 0x20 := named
        exact absurd (by decide) (unknown source tag _ ps rfl)
    exact read sections (((release_settles s j).others.state i another.symm).trans locked)
  | activation validating calm h =>
    obtain ⟨-, none_lively, -⟩ := (quiet_iff s).1 (quiet validating calm)
    exact absurd (.inr locked) (none_lively i inTable)
  | softReset sections =>
    refine read sections ?_
    rw [softBase_sectionRec s inTable, if_pos locked]
    exact locked
  | hardReset mv ends => exact absurd ends (noEnd mv)

end Sys2Proof.Machine
end

section
/-! SUPPORT. The trip decision spelled out (R83 to R90, R94, R95): what contributes to a section, the rule in force and the trip condition,
what an evaluation leaves in each of its three ways, and the evaluations that a report asks for. -/

namespace Sys2Proof.Machine

open Sys2Proof.Safety

/-! ## What contributes, and what has data (R83, R85) -/

theorem sectOf_eq_some_iff (e : ChannelEntry) (i : Nat) : e.sectOf = some i ↔ e.sect ≠ 0xFF ∧ e.sect.toNat = i := by
  unfold ChannelEntry.sectOf
  split
  next unnamed => simp [unnamed]
  next named => exact ⟨fun some_eq => ⟨named, Option.some.inj some_eq⟩, fun both => congrArg some both.2⟩

theorem viewed_iff (s : State) (c : Nat) (p : ChannelView → Bool) :
    s.viewed c p = true ↔ ∃ v, s.channelView c = some v ∧ p v = true := by
  unfold State.viewed
  cases s.channelView c <;> simp

theorem contributes_iff (s : State) (i c : Nat) : s.contributes i c = true ↔ s.tables.channelUsed c = true ∧
    (s.tables.channel c).sect ≠ 0xFF ∧ (s.tables.channel c).sect.toNat = i ∧
      ∃ v, s.channelView c = some v ∧ (v.cond = .normal ∨ v.cond = .dirty) := by
  have data : ∀ cond : ChannelCond, cond.contributes = true ↔ cond = .normal ∨ cond = .dirty := fun cond => by
    cases cond <;> simp [ChannelCond.contributes]
  rw [State.contributes, State.channelOf, Bool.and_eq_true, Bool.and_eq_true, decide_eq_true_eq, sectOf_eq_some_iff, viewed_iff]
  simp only [data, and_assoc]
  rfl

theorem litIn_iff (s : State) (i c : Nat) :
    s.litIn i c = true ↔ s.contributes i c = true ∧ ∃ v, s.channelView c = some v ∧ v.light = .lit := by
  rw [State.litIn, Bool.and_eq_true, viewed_iff]
  simp only [decide_eq_true_eq]

theorem eligibleIn_iff (s : State) (i c : Nat) :
    s.eligibleIn i c = true ↔ s.contributes i c = true ∧ ∃ v, s.channelView c = some v ∧ v.eligible = true := by
  rw [State.eligibleIn, Bool.and_eq_true, viewed_iff]

theorem find?_range_isSome (n : Nat) (p : Nat → Bool) : ((List.range n).find? p).isSome = true ↔ ∃ c, c < n ∧ p c = true := by
  simp only [List.find?_isSome, List.mem_range]

theorem someLit_iff (s : State) (i : Nat) : s.someLit i = true ↔ ∃ c, c < 96 ∧ s.litIn i c = true := find?_range_isSome 96 _

theorem flagged_iff (s : State) (p : Nat) : s.flagged p = true ↔ ∃ v, s.pointView p = some v ∧ v.confirm = true := by
  unfold State.flagged
  cases s.pointView p <;> simp

theorem pointHasData_iff (s : State) (p : Nat) : s.pointHasData p = true ↔ ∃ v, s.pointView p = some v ∧ v.cond = .normal := by
  unfold State.pointHasData
  cases s.pointView p <;> simp

/-! ## INACTIVE sections and the rule in force (R85, R87) -/

theorem modeOf_normal {e : SectionEntry} (h : e.mode = 1) : e.modeOf = some .normal := if_pos h

theorem modeOf_lightOnly {e : SectionEntry} (h : e.mode = 2) : e.modeOf = some .lightOnly := by
  rw [SectionEntry.modeOf, h]; rfl

theorem modeOf_disabled {e : SectionEntry} (h : e.mode = 3) : e.modeOf = some .disabled := by
  rw [SectionEntry.modeOf, h]; rfl

theorem sectionInactive_iff {s : State} {i : Nat} (h : (s.sectionEntry i).mode ∈ [1, 2, 3]) : s.sectionInactive i = true ↔
    s.agent.mode = .unconfigured ∨ s.tables.sectionUsed i = false ∨ (s.sectionEntry i).mode = 3 := by
  have used : markerSet (s.sectionEntry i).inUse = s.tables.sectionUsed i := rfl
  unfold State.sectionInactive
  rw [used]
  simp only [List.mem_cons, List.not_mem_nil, or_false] at h
  rcases h with mode | mode | mode
  · simp [modeOf_normal mode, mode]
  · simp [modeOf_lightOnly mode, mode]
  · simp [modeOf_disabled mode, mode]

section
variable {s : State} {i : Nat}

theorem rule_lightOnly (mode : (s.sectionEntry i).mode = 2) : s.rule i = .lightOnly := by
  rw [State.rule, modeOf_lightOnly mode]

theorem rule_maintenance (mode : (s.sectionEntry i).mode = 1) (on : (s.sectionRec i).maintenance = true) :
    s.rule i = .lightOnly := by
  rw [State.rule, modeOf_normal mode]
  exact if_pos on

theorem rule_confirmed (mode : (s.sectionEntry i).mode = 1) (off : (s.sectionRec i).maintenance = false)
    (data : ∃ p ∈ (s.sectionEntry i).confirmList, s.pointHasData p = true) : s.rule i = .lightAndCurrent := by
  rw [State.rule, modeOf_normal mode]
  dsimp only
  rw [off, if_neg Bool.false_ne_true, if_pos (List.any_eq_true.2 data)]

theorem rule_fallback (mode : (s.sectionEntry i).mode = 1) (off : (s.sectionRec i).maintenance = false)
    (dataless : ∀ p ∈ (s.sectionEntry i).confirmList, s.pointHasData p = false) :
    s.rule i = if (s.sectionEntry i).fallback = 2 then .lightOnly else .unconfirmable := by
  have no_data : (s.sectionEntry i).confirmList.any s.pointHasData = false :=
    List.any_eq_false.2 fun p listed => Bool.eq_false_iff.1 (dataless p listed)
  rw [State.rule, modeOf_normal mode]
  dsimp only
  rw [off, if_neg Bool.false_ne_true, no_data, if_neg Bool.false_ne_true, SectionEntry.fallbackLightOnly]
  simp only [decide_eq_true_eq]

/-! ## The trip condition (R86) -/

theorem tripCondition_iff (s : State) (i : Nat) : s.tripCondition i = true ↔
    (s.rule i = .lightOnly ∧ ∃ c, c < 96 ∧ s.eligibleIn i c = true) ∨
      (s.rule i = .lightAndCurrent ∧ (∃ c, c < 96 ∧ s.litIn i c = true) ∧
        ∃ p, p < 24 ∧ p ∈ (s.sectionEntry i).confirmList ∧ s.flagged p = true) := by
  have eligible : (s.lowestEligible i).isSome = true ↔ ∃ c, c < 96 ∧ s.eligibleIn i c = true := find?_range_isSome 96 _
  have flagged : (s.lowestFlagged i).isSome = true ↔ ∃ p, p < 24 ∧ p ∈ (s.sectionEntry i).confirmList ∧ s.flagged p = true := by
    refine (find?_range_isSome 24 _).trans (exists_congr fun p => and_congr_right fun _ => ?_)
    rw [Bool.and_eq_true, List.contains_eq_mem, decide_eq_true_eq]
  unfold State.tripCondition
  rw [← eligible, ← flagged, ← someLit_iff]
  cases s.rule i <;> simp

theorem rule_of_trips (trips : s.tripCondition i = true) : s.rule i = .lightOnly ∨ s.rule i = .lightAndCurrent :=
  ((tripCondition_iff s i).1 trips).imp And.left And.left

theorem SameInputs.rule {s t : State} (h : SameInputs s t) (i : Nat) : t.rule i = s.rule i := by
  have tables : t.tables = s.tables := h.active
  have hasData : t.pointHasData = s.pointHasData := by
    funext p
    rw [State.pointHasData, State.pointView_congr h.pointViews]
    rfl
  unfold State.rule State.sectionEntry
  rw [tables, h.maintenance, hasData]

theorem SameInputs.lowestLit {s t : State} (h : SameInputs s t) (i : Nat) : t.lowestLit i = s.lowestLit i := by
  have tables : t.tables = s.tables := h.active
  have views := State.channelView_congr h.channelViews
  have lit : t.litIn i = s.litIn i := by
    funext c
    simp only [State.litIn, State.contributes, State.channelOf, State.viewed, tables, views]
  rw [State.lowestLit, lit]
  rfl

/-! ## The three ways of an evaluation (R88, R89, R94, R95) -/

/-- The agent once a validation that runs is disturbed (R159). -/
def Agent.whenDisturbed (a : Agent) : Agent := if a.state = .validating then { a with disturbed := true } else a

theorem disturb_setSection (s : State) (i : Nat) (r : SectionRec) :
    (s.setSection i r).disturb = ({ s with agent := s.agent.whenDisturbed } : State).setSection i r := by
  unfold State.disturb Agent.whenDisturbed State.setSection
  dsimp only
  split <;> rfl

/-- The record of a section that trips (R89). -/
def SectionRec.tripped (r : SectionRec) : SectionRec :=
  { r with state := .tripped, persistence := .stopped, persistentMade := false, unconfirmableMade := false }

/-- The record of a section that is LIGHT after an evaluation, before any alarm of it: an episode begins unless it goes on (R94). -/
def SectionRec.lighted (r : SectionRec) : SectionRec :=
  if r.state = .light then r
  else { r with state := .light, persistence := .running 5000, persistentMade := false, unconfirmableMade := false }

/-- A trip: the record, then the askings in the order of the boundary list (R89, R110). -/
theorem evaluate_trips (trips : s.tripCondition i = true) (cause : Cause) : s.evaluate i cause =
    (s.sectionEntry i).boundaryList.foldl (fun s b => s.ask b (sectionSet i) 0)
      ((({ s with agent := s.agent.whenDisturbed } : State).setSection i (s.sectionRec i).tripped).record
        (s.trippedRecord i cause)) := by
  unfold State.evaluate State.enterTripped State.askBoundary
  rw [if_pos trips]
  dsimp only
  rw [disturb_setSection]
  rfl

theorem evaluate_trips_sectionRec (known : i < 16) (trips : s.tripCondition i = true) (cause : Cause) :
    (s.evaluate i cause).sectionRec i = (s.sectionRec i).tripped := by
  unfold State.evaluate
  rw [if_pos trips, sectionRec_enterTripped, sectionRec_setSection_own s known]
  rfl

/-- The SECTION_TRIPPED record is the first that a trip makes (R89). -/
theorem evaluate_trips_pool (trips : s.tripCondition i = true) (cause : Cause) : ∃ later : List RecordBody,
    (s.evaluate i cause).pool = later.foldl (fun p b => p.take s.deviceTime b) (s.pool.take s.deviceTime (s.trippedRecord i cause)) := by
  obtain ⟨later, made, -⟩ := (keeps_foldl OnlyRecords.refl OnlyRecords.trans (fun u b => ask_onlyTrips b (sectionSet i) 0 u)
    (s.sectionEntry i).boundaryList ((({ s with agent := s.agent.whenDisturbed } : State).setSection i
      (s.sectionRec i).tripped).record (s.trippedRecord i cause))).pool
  exact ⟨later, (congrArg State.pool (evaluate_trips trips cause)).trans made⟩

/-- The section is LIGHT, before any alarm of it. -/
theorem lighted_becomes (known : i < 16) :
    let u := if (s.sectionRec i).state = .light then s else s.beginLight i
    u.sectionRec i = (s.sectionRec i).lighted ∧ u.pool = s.pool ∧ u.deviceTime = s.deviceTime ∧ SameInputs s u := by
  dsimp only
  unfold SectionRec.lighted
  split
  · exact ⟨rfl, rfl, rfl, .refl s⟩
  · refine ⟨?_, ?_, (beginLight_kept s i).deviceTime, (beginLight_becomes s i).inputs⟩
    · rw [sectionRec_beginLight, sectionRec_setSection_own s known]
    · unfold State.beginLight State.disturb
      split <;> rfl

theorem evaluate_lights (untripped : s.tripCondition i = false) (lit : s.someLit i = true) (cause : Cause) :
    s.evaluate i cause = (if (s.sectionRec i).state = .light then s else s.beginLight i).alarmUnconfirmable i := by
  unfold State.evaluate
  rw [if_neg (Bool.eq_false_iff.1 untripped), if_pos lit]

/-- A LIGHT section that owes a LIGHT_UNCONFIRMABLE record makes it (R95). -/
theorem evaluate_alarms (known : i < 16) (untripped : s.tripCondition i = false) (lit : s.someLit i = true) (cause : Cause)
    (owed : s.rule i = .unconfirmable ∧ (s.sectionRec i).lighted.unconfirmableMade = false) :
    (s.evaluate i cause).sectionRec i = { (s.sectionRec i).lighted with unconfirmableMade := true } ∧
      (s.evaluate i cause).pool = s.pool.take s.deviceTime
        { kind := .lightUnconfirmable, category := .alarm, sect := some i, channel := s.lowestLit i } := by
  obtain ⟨own, pool, time, inputs⟩ := lighted_becomes (s := s) known
  rw [evaluate_lights untripped lit]
  unfold State.alarmUnconfirmable
  dsimp only
  rw [own, inputs.rule, if_pos owed, sectionRec_setSection_own _ known, inputs.lowestLit, ← pool, ← time]
  exact ⟨rfl, rfl⟩

/-- A LIGHT section that owes none makes no record (R88, R95). -/
theorem evaluate_lights_silently (known : i < 16) (untripped : s.tripCondition i = false) (lit : s.someLit i = true) (cause : Cause)
    (settled : ¬(s.rule i = .unconfirmable ∧ (s.sectionRec i).lighted.unconfirmableMade = false)) :
    (s.evaluate i cause).sectionRec i = (s.sectionRec i).lighted ∧ (s.evaluate i cause).pool = s.pool := by
  obtain ⟨own, pool, -, inputs⟩ := lighted_becomes (s := s) known
  rw [evaluate_lights untripped lit]
  unfold State.alarmUnconfirmable
  dsimp only
  rw [own, inputs.rule, if_neg settled]
  exact ⟨own, pool⟩

theorem evaluate_arms (untripped : s.tripCondition i = false) (dark : s.someLit i = false) (cause : Cause) :
    s.evaluate i cause = s.setSection i { s.sectionRec i with state := .armed, persistence := .stopped } := by
  unfold State.evaluate
  rw [if_neg (Bool.eq_false_iff.1 untripped), if_neg (Bool.eq_false_iff.1 dark)]

end

/-! ## The evaluations that a report asks for (R83, R84) -/

/-- A fold that acts on the entries of a list that the tables choose, under operations that leave the tables alone. -/
theorem foldl_chosen {f : State → Nat → State} {chosen : Tables → Nat → Bool} (same : ∀ s i, (f s i).tables = s.tables)
    (l : List Nat) (s : State) :
    l.foldl (fun s i => if chosen s.tables i then f s i else s) s = (l.filter (chosen s.tables)).foldl f s := by
  induction l generalizing s with
  | nil => rfl
  | cons i l ih =>
    rw [List.foldl_cons, List.filter_cons]
    split
    · rw [ih, same, List.foldl_cons]
    · exact ih s

theorem reportChannel_eq (s : State) (c : Nat) (v : ChannelView) : s.reportChannel c v =
    match (s.tables.channel c).sectOf with
    | none => s.setChannelView c v
    | some j => (s.setChannelView c v).reportTo j (.channel c) := by
  have tables : (s.setChannelView c v).tables = s.tables := rfl
  unfold State.reportChannel
  dsimp only
  rw [tables]
  cases (s.tables.channel c).sectOf <;> rfl

theorem reportPoint_eq (s : State) (p : Nat) (v : PointView) : s.reportPoint p v =
    ((List.range 16).filter fun j => s.tables.sectionUsed j && (s.tables.sectionAt j).confirmList.contains p).foldl
      (fun s j => s.reportTo j (.point p)) (s.setPointView p v) :=
  foldl_chosen (chosen := fun t j => t.sectionUsed j && (t.sectionAt j).confirmList.contains p)
    (fun s j => (reportTo_kept s j (.point p)).active) (List.range 16) (s.setPointView p v)

/-- Settles O27: each definition by its own equivalence, and an evaluation by its three ways. -/
theorem tripDecision : Obligations.tripDecision := by
  intro s i
  refine ⟨contributes_iff s i, litIn_iff s i, eligibleIn_iff s i, someLit_iff s i, flagged_iff s, pointHasData_iff s,
    sectionInactive_iff, rule_lightOnly, rule_maintenance, fun mode off => ⟨rule_confirmed mode off, fun dataless => ?_⟩,
    tripCondition_iff s i, fun known cause => ?_, reportChannel_eq s i, reportPoint_eq s i⟩
  · have rule := rule_fallback mode off dataless
    exact ⟨fun only => rule.trans (if_pos only), fun hold => rule.trans (if_neg (by rw [hold]; decide))⟩
  have becomes := evaluate_becomes s known cause
  refine ⟨becomes.state known, becomes.inputs.block i, becomes.inputs.maintenance i, becomes.others, ?_⟩
  intro r t lowest both tripped unconfirmable
  refine ⟨fun trips => ?_, fun untripped lit => ⟨evaluate_alarms known untripped lit cause,
    evaluate_lights_silently known untripped lit cause⟩, fun untripped dark => ?_⟩
  · have recorded : s.trippedRecord i cause = tripped := by
      unfold tripped both State.trippedRecord State.causingChannel State.causingPoint
      rcases rule_of_trips trips with rule | rule <;> rw [rule] <;> cases cause <;> rfl
    rw [← recorded]
    exact ⟨evaluate_trips_sectionRec known trips cause, sectionSet_getLsbD known, evaluate_trips trips cause,
      evaluate_trips_pool trips cause⟩
  · unfold t
    rw [evaluate_arms untripped dark, sectionRec_setSection_own s known]
    exact ⟨rfl, rfl⟩

end Sys2Proof.Machine
end

section
/-! SUPPORT. The requests on sections (R96 to R100): the checks, the blocks, the maintenance flag, and what an accepted RELEASE takes from the
active trip list and from the TRIP queue (R126). -/

namespace Sys2Proof.Machine

open Sys2Proof.Safety

/-! ## The checks and the answer (R96, R167) -/

section
variable {s : State} {i : Nat}

theorem onSection_unconfigured (mode : s.agent.mode = .unconfigured) (x : State × Result) :
    s.onSection i x = (s, .unconfigured) := by
  rw [State.onSection, State.sectionCheck, if_pos mode]

theorem onSection_badIndex (mode : s.agent.mode = .protecting) (beyond : 16 ≤ i) (x : State × Result) :
    s.onSection i x = (s, .badIndex) := by
  rw [State.onSection, State.sectionCheck, if_neg (by rw [mode]; exact nofun), if_pos beyond]

theorem onSection_taken (mode : s.agent.mode = .protecting) (known : i < 16) (x : State × Result) : s.onSection i x = x := by
  rw [State.onSection, State.sectionCheck, if_neg (by rw [mode]; exact nofun), if_neg (Nat.not_le.2 known)]

end

/-- A request that another block answers. -/
theorem request_served {s : State} {source : Byte} (takes : Takes s source) {serve : State → Served} {t : State} {r : Result}
    (answers : serve s = served (t, r)) (tag code : Byte) :
    (.next (s.outsideReset fun s => s.takeRequest source tag code serve) : Outcome) = .next (t.respond ⟨source, tag, code, r, []⟩) := by
  rw [outsideReset_up takes.1, takeRequest_answered takes answers]

section
variable {s t : State} {source : Byte} {r : Result} (takes : Takes s source) (tag sect : Byte)
include takes

theorem exec_setBlockOn (answers : s.setBlockOn sect.toNat = (t, r)) :
    exec (.setBlockOn source tag sect) s = .next (t.respond ⟨source, tag, 0x22, r, []⟩) :=
  request_served takes (congrArg served answers) tag 0x22

theorem exec_setBlockOff (answers : s.setBlockOff sect.toNat = (t, r)) :
    exec (.setBlockOff source tag sect) s = .next (t.respond ⟨source, tag, 0x22, r, []⟩) :=
  request_served takes (congrArg served answers) tag 0x22

theorem exec_setMaintenance (on : Bool) (answers : s.setMaintenance sect.toNat on = (t, r)) :
    exec (.setMaintenance source tag [sect, flagByte on]) s = .next (t.respond ⟨source, tag, 0x21, r, []⟩) := by
  cases on <;> exact request_served takes (congrArg served answers) tag 0x21

theorem exec_release (answers : s.release sect.toNat = (t, r)) :
    exec (.release source tag [sect]) s = .next (t.respond ⟨source, tag, 0x20, r, []⟩) :=
  request_served takes (congrArg served answers) tag 0x20

end

/-- Settles O30: the checks, and then the flag's own change by the state and the flag before. -/
theorem blockRequests : Obligations.blockRequests := by
  refine ⟨fun s source tag sect takes => ?_, fun s source tag sect takes => ?_, fun s source tag sect takes mode known => ?_⟩
  · refine ⟨fun mode => exec_setBlockOn takes tag sect (onSection_unconfigured mode _),
      fun mode beyond => exec_setBlockOn takes tag sect (onSection_badIndex mode beyond _),
      fun mode known off => exec_setBlockOn takes tag sect ((onSection_taken mode known _).trans ?_),
      fun mode known on => exec_setBlockOn takes tag sect ((onSection_taken mode known _).trans ?_)⟩
    · rw [if_neg (Bool.eq_false_iff.1 off)]
      rfl
    · rw [if_pos on]
  · exact ⟨fun mode => exec_setBlockOff takes tag sect (onSection_unconfigured mode _),
      fun mode beyond => exec_setBlockOff takes tag sect (onSection_badIndex mode beyond _)⟩
  · have taken := onSection_taken mode known
    refine ⟨fun unblocked off => exec_setBlockOff takes tag sect ((taken _).trans ?_),
      fun unblocked on => exec_setBlockOff takes tag sect ((taken _).trans ?_),
      fun blocked on => exec_setBlockOff takes tag sect ((taken _).trans ?_)⟩
    · rw [if_neg unblocked, if_neg (Bool.eq_false_iff.1 off), if_neg unblocked]
    · rw [if_neg unblocked, if_pos on, if_neg unblocked]
      rfl
    · rw [if_pos blocked, if_pos on, if_pos blocked]
      rfl

/-- A section with its maintenance flag changed and recorded (R99). -/
def State.maintained (s : State) (i : Nat) (on : Bool) : State :=
  (s.setSection i { s.sectionRec i with maintenance := on }).record (flagRecord .maintenanceChange i on)

theorem sectionRec_maintained (s : State) {i : Nat} (known : i < 16) (on : Bool) :
    (s.maintained i on).sectionRec i = { s.sectionRec i with maintenance := on } := sectionRec_setSection_own s known _

/-- Settles O31: the checks, and then the flag's change, with the evaluation of an ARMED or LIGHT section alone. -/
theorem maintenanceChange : Obligations.maintenanceChange := by
  refine ⟨fun s source tag sect value takes named => ?_, fun s source tag sect value on takes mode known named => ?_⟩
  · obtain ⟨on, rfl⟩ : ∃ on, value = flagByte on := by
      rw [List.mem_cons, List.mem_singleton] at named
      rcases named with rfl | rfl
      · exact ⟨false, rfl⟩
      · exact ⟨true, rfl⟩
    exact ⟨fun mode => exec_setMaintenance takes tag sect on (onSection_unconfigured mode _),
      fun mode beyond => exec_setMaintenance takes tag sect on (onSection_badIndex mode beyond _)⟩
  · subst named
    have taken := onSection_taken mode known
    have state : ((s.maintained sect.toNat on).sectionRec sect.toNat).state = (s.sectionRec sect.toNat).state := by
      rw [sectionRec_maintained s known on]
    have evaluates : (s.sectionRec sect.toNat).state = .armed ∨ (s.sectionRec sect.toNat).state = .light →
        (s.maintained sect.toNat on).reportTo sect.toNat .other = (s.maintained sect.toNat on).evaluate sect.toNat .other :=
      fun acts => if_pos (by rwa [state])
    have rests : (s.sectionRec sect.toNat).state ≠ .armed → (s.sectionRec sect.toNat).state ≠ .light →
        (s.maintained sect.toNat on).reportTo sect.toNat .other = s.maintained sect.toNat on :=
      fun unarmed unlit => if_neg (by rw [state]; exact not_or.2 ⟨unarmed, unlit⟩)
    refine ⟨fun same => exec_setMaintenance takes tag sect on ((taken _).trans ?_),
      fun differs acts => exec_setMaintenance takes tag sect on ((taken _).trans ?_),
      fun differs unarmed unlit => exec_setMaintenance takes tag sect on ((taken _).trans ?_)⟩
    · rw [if_pos same]
    · rw [if_neg differs]
      exact congrArg (·, Result.ok) (evaluates acts)
    · rw [if_neg differs]
      exact congrArg (·, Result.ok) (rests unarmed unlit)

/-! ## A section removed from the orders (R126) -/

/-- The causes of an order without a section. -/
def Order.left (i : Nat) (o : Order) : SectionSet := o.causes &&& ~~~ sectionSet i

/-- An order without a section, none when it has no other cause (R126). -/
def Order.without (i : Nat) (o : Order) : Option Order := if o.left i = 0 then none else some { o with causes := o.left i }

/-- A TRIP frame stays queued when the removal of a section from an order leaves the frame's breaker its order. -/
def Order.keepsFrame (i : Nat) (o : Order) (f : TripFrame) : Bool := o.breaker ≠ f.breaker || o.left i ≠ 0

theorem Order.without_of_left {i : Nat} {o : Order} (h : o.left i ≠ 0) : o.without i = some { o with causes := o.left i } := if_neg h

theorem Order.keepsFrame_of_left {i : Nat} {o : Order} (h : o.left i ≠ 0) (f : TripFrame) : o.keepsFrame i f = true :=
  Bool.or_eq_true_iff.2 (.inr (decide_eq_true h))

theorem Order.without_breaker {i : Nat} {o p : Order} (h : o.without i = some p) : p.breaker = o.breaker := by
  unfold Order.without at h
  split at h
  · cases h
  · cases h
    rfl

/-- After the removal of a section from one order, or from several, these orders stand, and the TRIP queue holds the frames that are kept;
the rest of the Loop Port, the Event Pool and the agent are as they were. -/
structure Removes (s t : State) (orders : List Order) (keeps : TripFrame → Bool) : Prop where
  orders : t.trip.orders = orders
  loop : t.loop = { s.loop with tripQ := s.loop.tripQ.filter keeps }
  pool : t.pool = s.pool
  agent : t.agent = s.agent

theorem reconsiderLine_removes {s t : State} {orders : List Order} {keeps : TripFrame → Bool} (h : Removes s t orders keeps) (b : Nat) :
    Removes s (t.reconsiderLine b) orders keeps := by
  unfold State.reconsiderLine
  split
  · split
    · exact h
    · exact ⟨h.orders, h.loop, h.pool, h.agent⟩
  · exact h

/-- No frame is withdrawn from the TRIP queue. -/
theorem loop_allKept (l : LoopPort) {keeps : TripFrame → Bool} (all : ∀ f, keeps f = true) :
    l = { l with tripQ := l.tripQ.filter keeps } := by
  rw [List.filter_eq_self.2 fun f _ => all f]

section
variable {s : State} {pre rest : List Order} {o : Order} (orders : s.trip.orders = pre ++ o :: rest)
  (once : (s.trip.orders.map Order.breaker).Nodup)
include orders once

theorem breaker_elsewhere {p : Order} (mem : p ∈ pre ∨ p ∈ rest) : p.breaker ≠ o.breaker := by
  rw [orders, List.map_append, List.map_cons, List.nodup_middle, List.nodup_cons] at once
  intro same
  refine once.1 (same ▸ ?_)
  rw [← List.map_append]
  exact List.mem_map_of_mem (List.mem_append.2 mem)

theorem order_of_split : s.order o.breaker = some o := by
  rw [State.order, orders, List.find?_append, List.find?_eq_none.2 fun p mem => by
    simpa using breaker_elsewhere orders once (.inl mem)]
  simp

theorem map_at_split {f : Order → Order} :
    s.trip.orders.map (fun p => if p.breaker = o.breaker then f p else p) = pre ++ f o :: rest := by
  have same : ∀ l : List Order, (∀ p ∈ l, p.breaker ≠ o.breaker) → l.map (fun p => if p.breaker = o.breaker then f p else p) = l :=
    fun l other => (List.map_congr_left fun p mem => if_neg (other p mem)).trans (List.map_id' l)
  rw [orders, List.map_append, List.map_cons, if_pos rfl, same pre fun p mem => breaker_elsewhere orders once (.inl mem),
    same rest fun p mem => breaker_elsewhere orders once (.inr mem)]

theorem filter_at_split : s.trip.orders.filter (fun p => p.breaker ≠ o.breaker) = pre ++ rest := by
  have same : ∀ l : List Order, (∀ p ∈ l, p.breaker ≠ o.breaker) → l.filter (fun p => p.breaker ≠ o.breaker) = l :=
    fun l other => List.filter_eq_self.2 fun p mem => decide_eq_true (other p mem)
  rw [orders, List.filter_append, List.filter_cons_of_neg (by simp), same pre fun p mem => breaker_elsewhere orders once (.inl mem),
    same rest fun p mem => breaker_elsewhere orders once (.inr mem)]

/-- One order loses the section, or leaves the list with its queued frame (R126). -/
theorem removeCause_removes (i : Nat) (caused : o.causes ≠ 0) :
    Removes s (State.removeCause i s o.breaker) (pre ++ (o.without i).toList ++ rest) (o.keepsFrame i) := by
  unfold State.removeCause
  rw [order_of_split orders once]
  dsimp only
  split
  next same =>
    have left : o.left i = o.causes := same
    have stays : o.left i ≠ 0 := left ▸ caused
    refine ⟨?_, loop_allKept s.loop (Order.keepsFrame_of_left stays), rfl, rfl⟩
    rw [Order.without_of_left stays, left, orders, List.append_assoc]
    rfl
  next =>
    split
    next empty =>
      have gone : o.left i = 0 := empty
      refine reconsiderLine_removes (s := s)
        (t := (s.setOrders (s.trip.orders.filter fun p => p.breaker ≠ o.breaker)).withdrawTrip o.breaker) ⟨?_, ?_, rfl, rfl⟩ o.breaker
      · change ((s.trip.orders.filter fun p => p.breaker ≠ o.breaker).map fun p =>
          if p.breaker = o.breaker then ({ p with waiting := false } : Order) else p) = _
        rw [List.map_congr_left fun p mem => if_neg (of_decide_eq_true (List.mem_filter.1 mem).2), List.map_id',
          filter_at_split orders once, Order.without, if_pos gone, Option.toList_none, List.append_nil]
      · have keeps : o.keepsFrame i = fun f => decide (f.breaker ≠ o.breaker) := by
          funext f
          simp [Order.keepsFrame, gone, eq_comm]
        rw [keeps]
        rfl
    next others =>
      have stays : o.left i ≠ 0 := others
      refine ⟨?_, loop_allKept s.loop (Order.keepsFrame_of_left stays), rfl, rfl⟩
      rw [Order.without_of_left stays, List.append_assoc]
      exact map_at_split orders once

end

/-- The orders from some place on lose the section, each in its turn (R126). -/
theorem removeCauses_removes (i : Nat) (l : List Order) : ∀ (pre : List Order) (s : State), s.trip.orders = pre ++ l →
    (s.trip.orders.map Order.breaker).Nodup → (∀ o ∈ l, o.causes ≠ 0) →
    Removes s ((l.map Order.breaker).foldl (State.removeCause i) s) (pre ++ l.filterMap (Order.without i))
      (fun f => l.all fun o => o.keepsFrame i f) := by
  induction l with
  | nil => exact fun pre s orders _ _ => ⟨orders, loop_allKept s.loop fun _ => rfl, rfl, rfl⟩
  | cons o l ih =>
    intro pre s orders once caused
    have first := removeCause_removes orders once i (caused o List.mem_cons_self)
    have sub : ((pre ++ (o.without i).toList ++ l).map Order.breaker).Sublist (s.trip.orders.map Order.breaker) := by
      rw [orders]
      cases kept : o.without i with
      | none => simp
      | some p => simp [Order.without_breaker kept]
    have rest := ih (pre ++ (o.without i).toList) (State.removeCause i s o.breaker) first.orders
      (first.orders ▸ sub.nodup once) fun p mem => caused p (List.mem_cons_of_mem o mem)
    refine ⟨?_, ?_, rest.pool.trans first.pool, rest.agent.trans first.agent⟩
    · rw [List.map_cons, List.foldl_cons, rest.orders, List.filterMap_cons]
      cases o.without i <;> simp
    · rw [List.map_cons, List.foldl_cons, rest.loop, first.loop]
      simp only [List.filter_filter, List.all_cons, Bool.and_comm]

/-- A released section is removed from every order (R126). -/
theorem removeSection_removes {s : State} (once : (s.trip.orders.map Order.breaker).Nodup) (caused : ∀ o ∈ s.trip.orders, o.causes ≠ 0)
    (i : Nat) : Removes s (s.removeSection i) (s.trip.orders.filterMap (Order.without i))
      (fun f => s.trip.orders.all fun o => o.keepsFrame i f) :=
  removeCauses_removes i s.trip.orders [] s rfl once caused

/-! ## RELEASE (R100) -/

/-- The state after an accepted RELEASE, before its answer. -/
def State.released (s : State) (i : Nat) : State :=
  ((s.removeSection i).setSection i
    { s.sectionRec i with state := if (s.sectionRec i).block then .blocked else .armed }).record
      { kind := .sectionReleased, category := .trip, sect := some i }

section
variable {s : State} {i : Nat} (mode : s.agent.mode = .protecting) (known : i < 16)
include mode known

theorem release_refused (h : (s.sectionRec i).state ≠ .tripped ∨ s.someLit i = true) : s.release i = (s, .refusedState) := by
  refine (onSection_taken mode known _).trans (if_neg ?_)
  rintro ⟨tripped, dark⟩
  rcases h with untripped | lit
  · exact untripped tripped
  · exact absurd (lit.symm.trans dark) nofun

theorem release_accepted (tripped : (s.sectionRec i).state = .tripped) (dark : s.someLit i = false) :
    s.release i = (s.released i, .ok) := (onSection_taken mode known _).trans (if_pos ⟨tripped, dark⟩)

end

theorem sectionRec_released (s : State) (i j : Nat) : (s.released i).sectionRec j =
    (s.setSection i { s.sectionRec i with state := if (s.sectionRec i).block then .blocked else .armed }).sectionRec j := by
  change (State.setSection (s.removeSection i) i _).sectionRec j = _
  rw [State.sectionRec_setSection, State.sectionRec_setSection,
    State.sectionRec_congr (congrArg SectionEvaluator.records (removeSection_kept s i).sections)]

/-- Settles O32: the checks, and the removal of the section from one order after the other. -/
theorem releaseOfASection : Obligations.releaseOfASection := by
  intro s source tag sect takes i r refused
  refine ⟨fun mode => exec_release takes tag sect (onSection_unconfigured mode _),
    fun mode beyond => exec_release takes tag sect (onSection_badIndex mode beyond _),
    fun mode known h => exec_release takes tag sect (release_refused mode known h),
    fun mode known tripped dark once caused => ⟨s.released i, exec_release takes tag sect (release_accepted mode known tripped dark), ?_⟩⟩
  have removes := removeSection_removes once.1 caused i
  have kept := removeSection_kept s i
  refine ⟨(sectionRec_released s i i).trans (sectionRec_setSection_own s known _), fun j other => ?_, removes.orders, fun f => ?_, ?_,
    ?_, kept.nodes, kept.channels, kept.points, kept.positions, kept.lens, removes.agent, kept.store, kept.supply⟩
  · rw [sectionRec_released, State.sectionRec_setSection, if_neg fun here => other here.1.symm]
  · have queue : (s.released i).loop.tripQ = s.loop.tripQ.filter fun f => s.trip.orders.all fun o => o.keepsFrame i f :=
      congrArg LoopPort.tripQ removes.loop
    rw [queue, List.mem_filter, List.all_eq_true]
    refine and_congr_right fun _ => forall₂_congr fun o _ => ?_
    simp only [Order.keepsFrame, Bool.or_eq_true, decide_eq_true_eq, ← imp_iff_not_or]
    rfl
  · have loop : (s.released i).loop = _ := removes.loop
    rw [loop]
  · change (s.removeSection i).pool.take (s.removeSection i).deviceTime _ = _
    rw [removes.pool, kept.deviceTime]

end Sys2Proof.Machine
end

section
/-! SUPPORT. What an event does to the orders, the trip lines and the sections that are TRIPPED: it is a run of a few kinds of deeds, but
for an activation, a reset and the passing of time. An invariant of these parts is proved kept by checking the kinds. -/

namespace Sys2Proof.Machine

open Sys2Proof.Safety
open Relation (ReflTransGen)

/-! ## Kinds of deed -/

/-- What causes, depths and trip lines are read from in an order. -/
def Order.gist (o : Order) : Nat × OrderState × SectionSet × Nat := (o.breaker, o.state, o.causes, o.depth)

/-- The active trip list without timers, ages and waiting copies. -/
abbrev State.gists (s : State) : List (Nat × OrderState × SectionSet × Nat) := s.trip.orders.map Order.gist

/-- A change beside the tables, what the orders stand for, the trip lines and the sections that are TRIPPED. -/
structure Beside (s t : State) : Prop where
  active : t.agent.active = s.agent.active
  gists : t.gists = s.gists
  lines : t.trip.lines = s.trip.lines
  tripped : ∀ i, (t.sectionRec i).state = .tripped ↔ (s.sectionRec i).state = .tripped

/-- The changes that every event is made of, as far as orders, trip lines and TRIPPED sections go, but for an activation, a reset and the
passing of time. -/
inductive Deed : State → State → Prop
  | beside {s t : State} (h : Beside s t) : Deed s t
  | trips {s : State} {i : Nat} (known : i < Config.sectionCount) (c : Cause) : Deed s (s.enterTripped i c)
  | fails {s : State} {b : Nat} {o : Order} (r : FailReason) (ho : s.order b = some o) (hi : o.state = .issued) :
      Deed s (s.failWith State.ask b r)
  | opens {s : State} {b : Nat} {o : Order} (ho : s.order b = some o) : Deed s (s.openOrder o)
  | reissues {s : State} {b : Nat} {o : Order} (p : Position) (ho : s.order b = some o) : Deed s (s.reissueOrder o p)
  | pulse (s : State) (l : Nat) : Deed s (s.pulseExpiry l)
  | releases (s : State) (i : Nat) : Deed s (s.release i).1

/-- A run of deeds. -/
abbrev Deeds : State → State → Prop := ReflTransGen Deed

theorem Beside.refl (s : State) : Beside s s := ⟨rfl, rfl, rfl, fun _ => .rfl⟩

theorem Beside.trans {s t u : State} (h : Beside s t) (k : Beside t u) : Beside s u :=
  ⟨k.active.trans h.active, k.gists.trans h.gists, k.lines.trans h.lines, fun i => (k.tripped i).trans (h.tripped i)⟩

theorem Beside.deeds {s t : State} (h : Beside s t) : Deeds s t := .single (.beside h)

theorem Beside.of_same {s t : State} (active : t.agent.active = s.agent.active) (orders : t.trip.orders = s.trip.orders)
    (lines : t.trip.lines = s.trip.lines) (records : t.sections.records = s.sections.records) : Beside s t :=
  ⟨active, congrArg (List.map Order.gist) orders, lines, fun i => by rw [State.sectionRec_congr records]⟩

theorem record_beside (s : State) (b : RecordBody) : Beside s (s.record b) := .of_same rfl rfl rfl rfl
theorem setLoop_beside (s : State) (l : LoopPort) : Beside s (s.setLoop l) := .of_same rfl rfl rfl rfl
theorem setLens_beside (s : State) (l : LensEngine) : Beside s (s.setLens l) := .of_same rfl rfl rfl rfl
theorem setNode_beside (s : State) (n : Nat) (r : NodeRec) : Beside s (s.setNode n r) := .of_same rfl rfl rfl rfl
theorem setChannel_beside (s : State) (c : Nat) (r : ChannelRec) : Beside s (s.setChannel c r) := .of_same rfl rfl rfl rfl
theorem setPosition_beside (s : State) (b : Nat) (p : Position) : Beside s (s.setPosition b p) := .of_same rfl rfl rfl rfl
theorem setHeld_beside (s : State) (held : List Response) :
    Beside s { s with agent := { s.agent with held := held } } := .of_same rfl rfl rfl rfl

theorem disturb_beside (s : State) : Beside s s.disturb := by
  obtain ⟨-, trip, -, active, -, -, sections, -⟩ := disturb_same s
  exact .of_same active (congrArg _ trip) (congrArg _ trip) (congrArg _ sections)

/-- A section's record is replaced by one that is TRIPPED exactly if the section was. -/
theorem setSection_beside (s : State) (i : Nat) (r : SectionRec) (same : r.state = .tripped ↔ (s.sectionRec i).state = .tripped) :
    Beside s (s.setSection i r) := by
  refine ⟨rfl, rfl, rfl, fun j => ?_⟩
  rw [State.sectionRec_setSection]
  split
  next here => rw [← here.1, same]
  next => exact .rfl

/-- A change of the gist of no order. -/
theorem updateOrder_beside (s : State) (b : Nat) (f : Order → Order)
    (same : ∀ o, (f o).gist = o.gist := by exact fun _ => rfl) : Beside s (s.updateOrder b f) := by
  refine ⟨rfl, ?_, rfl, fun _ => .rfl⟩
  rw [State.gists, State.updateOrder_orders, List.map_map]
  refine List.map_congr_left fun o _ => ?_
  dsimp only [Function.comp_apply]
  split
  · exact same o
  · rfl

theorem deeds_foldl {f : State → α → State} (hf : ∀ s a, Deeds s (f s a)) (l : List α) (s : State) : Deeds s (l.foldl f s) :=
  keeps_foldl (fun _ => ReflTransGen.refl) ReflTransGen.trans hf l s

/-! ## Transmit queues -/

theorem clearWaiting_beside (s : State) (b : Nat) : Beside s (s.clearWaiting b) := updateOrder_beside s b _

theorem startNext_beside (s : State) : Beside s s.startNext := by
  unfold State.startNext
  split
  · exact (setLoop_beside s _).trans (clearWaiting_beside _ _)
  all_goals exact setLoop_beside s _

theorem startIfIdle_beside (s : State) : Beside s s.startIfIdle := by
  unfold State.startIfIdle
  split
  · exact startNext_beside s
  · exact .refl s

theorem pushControl_beside (s : State) (f : ControlFrame) : Beside s (s.pushControl f) :=
  (setLoop_beside s _).trans (startIfIdle_beside _)

theorem pushTrip_beside (s : State) (f : TripFrame) : Beside s (s.pushTrip f) := (setLoop_beside s _).trans (startIfIdle_beside _)

theorem pushRoutine_beside (s : State) (r : Response) : Beside s (s.pushRoutine r) :=
  (setLoop_beside s _).trans (startIfIdle_beside _)

theorem withdrawTrip_beside (s : State) (b : Nat) : Beside s (s.withdrawTrip b) :=
  (setLoop_beside s _).trans (clearWaiting_beside _ b)

/-! ## Trip Dispatcher -/

theorem attemptSend_beside (s : State) (b : Nat) : Beside s (s.attemptSend b) := by
  unfold State.attemptSend
  split
  · split
    · exact (updateOrder_beside s b fun o => { o with waiting := true }).trans (pushTrip_beside _ _)
    · exact .refl s
  · exact .refl s

theorem enterCut_deeds (s : State) (b : Nat) : Deeds s (s.enterCut b) := by
  unfold State.enterCut State.failIfCut
  split
  next o ho =>
    split
    next hi =>
      split
      · exact .single (.fails .cut ho hi)
      · exact .refl
    · exact .refl
  · exact .refl

theorem failureExpiry_deeds (s : State) (b : Nat) : Deeds s (s.failureExpiry b) := by
  unfold State.failureExpiry
  split
  next o ho =>
    split
    next due => exact .single (.fails .timer ho due.1)
    · exact .refl
  · exact .refl

theorem resendExpiry_beside (s : State) (b : Nat) : Beside s (s.resendExpiry b) := by
  unfold State.resendExpiry
  split
  · split
    · exact (updateOrder_beside s b _).trans (attemptSend_beside _ b)
    · exact .refl s
  · exact .refl s

theorem orderSeesPosition_deeds (s : State) (b : Nat) (p : Position) : Deeds s (s.orderSeesPosition b p) := by
  unfold State.orderSeesPosition
  split
  · exact .refl
  next o ho =>
    split
    · split
      · exact .single (.opens ho)
      · exact .refl
    · split
      · exact .single (.reissues p ho)
      · exact .refl

theorem deliverPosition_deeds (s : State) (b : Nat) (p : Position) : Deeds s (s.deliverPosition b p) := by
  unfold State.deliverPosition
  split
  · exact .refl
  · split
    · exact .refl
    · exact ((setPosition_beside s b p).trans (record_beside _ _)).deeds.trans (orderSeesPosition_deeds _ b p)

theorem positionUnknown_beside (s : State) (b : Nat) : Beside s (s.positionUnknown b) := by
  unfold State.positionUnknown
  split
  · exact setPosition_beside s b _
  · exact .refl s

/-! ## Section Evaluator -/

theorem alarmUnconfirmable_beside (s : State) (i : Nat) : Beside s (s.alarmUnconfirmable i) := by
  unfold State.alarmUnconfirmable
  dsimp only
  split
  · exact (record_beside s _).trans (setSection_beside _ i _ (by exact .rfl))
  · exact .refl s

/-- A section that is not TRIPPED takes another record that is not. -/
theorem setSection_untripped {s : State} {i : Nat} (was : (s.sectionRec i).state ≠ .tripped) {r : SectionRec}
    (is : r.state ≠ .tripped) : Beside s (s.setSection i r) := setSection_beside s i r ⟨fun e => absurd e is, fun e => absurd e was⟩

/-- An evaluation, which no TRIPPED section has (R88, R89). -/
theorem evaluate_deeds {s : State} {i : Nat} (known : i < Config.sectionCount) (untripped : (s.sectionRec i).state ≠ .tripped)
    (c : Cause) : Deeds s (s.evaluate i c) := by
  unfold State.evaluate
  split
  · exact .single (.trips known c)
  · split
    · refine (Beside.trans ?_ (alarmUnconfirmable_beside _ i)).deeds
      split
      · exact .refl s
      · exact (setSection_untripped untripped (by exact nofun)).trans (disturb_beside _)
    · exact (setSection_untripped untripped (by exact nofun)).deeds

theorem reportTo_deeds (s : State) (i : Nat) (c : Cause) : Deeds s (s.reportTo i c) := by
  unfold State.reportTo
  split
  next acts =>
    have known : i < 16 := sectionRec_known (by rcases acts with e | e <;> rw [e] <;> exact nofun)
    exact evaluate_deeds known (by rcases acts with e | e <;> rw [e] <;> exact nofun) c
  · exact .refl

theorem reportChannel_deeds (s : State) (c : Nat) (v : ChannelView) : Deeds s (s.reportChannel c v) := by
  have viewed : Beside s (s.setChannelView c v) := .of_same rfl rfl rfl rfl
  unfold State.reportChannel
  dsimp only
  split
  · exact viewed.deeds.trans (reportTo_deeds _ _ _)
  · exact viewed.deeds

theorem reportPoint_deeds (s : State) (p : Nat) (v : PointView) : Deeds s (s.reportPoint p v) := by
  have viewed : Beside s (s.setPointView p v) := .of_same rfl rfl rfl rfl
  refine viewed.deeds.trans (deeds_foldl (fun u i => ?_) _ _)
  split
  · exact reportTo_deeds u i _
  · exact .refl

/-- A recomputation of a section that is not TRIPPED (R87). -/
theorem recompute_deeds {s : State} {i : Nat} (known : i < Config.sectionCount) (untripped : (s.sectionRec i).state ≠ .tripped) :
    Deeds s (s.recompute i) := by
  unfold State.recompute
  dsimp only
  split
  · exact (setSection_untripped untripped (by exact nofun)).deeds
  · split
    · exact (setSection_untripped untripped (by exact nofun)).deeds
    · refine (setSection_untripped untripped (by exact nofun)).deeds.trans (evaluate_deeds known ?_ .other)
      rw [sectionRec_setSection_own s known]
      exact nofun

theorem persistenceExpiry_beside (s : State) (i : Nat) : Beside s (s.persistenceExpiry i) := by
  have set : Beside s (s.setSection i { s.sectionRec i with persistence := .stopped, persistentMade := true }) :=
    setSection_beside s i _ (by exact .rfl)
  unfold State.persistenceExpiry
  dsimp only
  split
  · split
    · exact set
    · exact set.trans (record_beside _ _)
  · exact .refl s

theorem onSection_deeds {s : State} {i : Nat} {x : State × Result} (h : i < Config.sectionCount → Deeds s x.1) :
    Deeds s (s.onSection i x).1 := by
  unfold State.onSection
  split
  · exact .refl
  next taken =>
    refine h (Nat.lt_of_not_le fun beyond => ?_)
    unfold State.sectionCheck at taken
    split at taken <;> cases taken

theorem setBlockOn_deeds (s : State) (i : Nat) : Deeds s (s.setBlockOn i).1 := by
  refine onSection_deeds fun _ => Beside.deeds ?_
  have set : Beside s (s.setSection i { s.sectionRec i with
      block := true
      state := if (s.sectionRec i).state = .armed ∨ (s.sectionRec i).state = .light then .blocked else (s.sectionRec i).state
      persistence := if (s.sectionRec i).state = .light then .stopped else (s.sectionRec i).persistence }) := by
    refine setSection_beside s i _ ?_
    dsimp only
    split
    next acts => rcases acts with e | e <;> rw [e] <;> exact ⟨nofun, nofun⟩
    next => exact .rfl
  dsimp only
  split
  · exact set
  · exact set.trans (record_beside _ _)

theorem setBlockOff_deeds (s : State) (i : Nat) : Deeds s (s.setBlockOff i).1 := by
  refine onSection_deeds fun known => ?_
  by_cases blocked : (s.sectionRec i).state = .blocked
  · have armed : Beside s (s.setSection i { s.sectionRec i with block := false, state := .armed }) :=
      setSection_untripped (by rw [blocked]; exact nofun) (by exact nofun)
    have recorded : ∀ u : State, Beside (s.setSection i { s.sectionRec i with block := false, state := .armed }) u →
        u.sections = (s.setSection i { s.sectionRec i with block := false, state := .armed }).sections →
        Deeds s (u.evaluate i .other) := fun u beside sections => by
      refine (armed.trans beside).deeds.trans (evaluate_deeds known ?_ .other)
      rw [State.sectionRec_congr (congrArg _ sections), sectionRec_setSection_own s known]
      exact nofun
    dsimp only
    rw [if_pos blocked, if_pos blocked]
    split
    · exact recorded _ (record_beside _ _) rfl
    · exact recorded _ (.refl _) rfl
  · have set : Beside s (s.setSection i { s.sectionRec i with block := false, state := (s.sectionRec i).state }) :=
      setSection_beside s i _ (by exact .rfl)
    dsimp only
    rw [if_neg blocked, if_neg blocked]
    split
    · exact (set.trans (record_beside _ _)).deeds
    · exact set.deeds

theorem setMaintenance_deeds (s : State) (i : Nat) (on : Bool) : Deeds s (s.setMaintenance i on).1 := by
  refine onSection_deeds fun _ => ?_
  dsimp only
  split
  · exact .refl
  · exact ((setSection_beside s i _ (by exact .rfl)).trans (record_beside _ _)).deeds.trans (reportTo_deeds _ i _)

/-! ## Light Qualifier -/

theorem flickerRecord_beside (s : State) (c : Nat) (e : FlickerEvent) : Beside s (s.flickerRecord c e) := by
  cases e
  · exact .refl s
  · exact record_beside s _
  · exact record_beside s _

theorem changeChannel_deeds (s : State) (c : Nat) (old new : ChannelRec) : Deeds s (s.changeChannel c old new) := by
  unfold State.changeChannel
  dsimp only
  split
  · exact (setChannel_beside s c new).deeds
  · exact (setChannel_beside s c new).deeds.trans (reportChannel_deeds _ _ _)

theorem processSample_deeds (s : State) (c : Nat) (x : Sample) : Deeds s (s.processSample c x) := by
  unfold State.processSample
  split
  · exact .refl
  · exact ((flickerRecord_beside s c _).trans (flickerRecord_beside _ c _)).deeds.trans (changeChannel_deeds _ c _ _)

theorem processMany_deeds (s : State) (c : Nat) (x : Sample) (n : Nat) : Deeds s (s.processMany c x n) := by
  induction n generalizing s with
  | zero => exact .refl
  | succ n ih => exact (processSample_deeds s c x).trans (ih _)

theorem processDelivered_deeds (s : State) (c level gap : Nat) : Deeds s (s.processDelivered c level gap) := by
  unfold State.processDelivered
  split
  · exact .refl
  · exact ((processMany_deeds s c _ _).trans (processMany_deeds _ c _ _)).trans (processSample_deeds _ c _)

theorem channelStale_deeds (s : State) (c : Nat) : Deeds s (s.channelStale c) := by
  unfold State.channelStale
  split
  · exact changeChannel_deeds s c _ _
  · exact .refl

theorem channelLive_deeds (s : State) (c : Nat) : Deeds s (s.channelLive c) := by
  unfold State.channelLive
  split
  · split
    · exact changeChannel_deeds s c _ _
    · exact .refl
  · exact .refl

theorem startTesting_deeds (s : State) (c : Nat) : Deeds s (s.startTesting c) := by
  unfold State.startTesting
  split
  · exact changeChannel_deeds s c _ _
  · exact .refl

theorem leaveTesting_deeds (s : State) (c : Nat) (a : Option Nat) : Deeds s (s.leaveTesting c a) := by
  unfold State.leaveTesting
  split
  · split
    · exact .refl
    · split
      · dsimp only
        split
        · exact (changeChannel_deeds s c _ _).trans (processSample_deeds _ c _)
        · exact changeChannel_deeds s c _ _
      · exact changeChannel_deeds s c _ _
  · exact .refl

/-! ## Current Confirmation Unit -/

theorem changePoint_deeds (s : State) (p : Nat) (old new : PointRec) : Deeds s (s.changePoint p old new) := by
  have set : Beside s (s.setPoint p new) := .of_same rfl rfl rfl rfl
  unfold State.changePoint
  dsimp only
  split
  · exact set.deeds
  · exact set.deeds.trans (reportPoint_deeds _ _ _)

theorem deliverPoint_deeds (s : State) (p gap : Nat) (x : Phases) : Deeds s (s.deliverPoint p gap x) := by
  have gapped : Deeds s (s.pointGap p gap) := by
    unfold State.pointGap
    split
    · exact changePoint_deeds s p _ _
    · exact .refl
  have sampled : Deeds (s.pointGap p gap) ((s.pointGap p gap).pointSample p x) := by
    unfold State.pointSample
    split
    · exact changePoint_deeds _ p _ _
    · exact .refl
  exact gapped.trans sampled

theorem pointStale_deeds (s : State) (p : Nat) : Deeds s (s.pointStale p) := by
  unfold State.pointStale
  split
  · exact changePoint_deeds s p _ _
  · exact .refl

theorem pointLive_deeds (s : State) (p : Nat) : Deeds s (s.pointLive p) := by
  unfold State.pointLive
  split
  · split
    · exact changePoint_deeds s p _ _
    · exact .refl
  · exact .refl

/-! ## Lens Check Engine -/

theorem offerTest_beside (s : State) (f : TestFrame) : Beside s (s.offerTest f) := by
  unfold State.offerTest
  split
  · exact pushControl_beside s _
  · exact setLens_beside s _

theorem putOutLamp_beside (s : State) (c : Nat) : Beside s (s.putOutLamp c) := by
  unfold State.putOutLamp
  split
  · exact setLens_beside s _
  · split
    · exact .refl s
    · exact offerTest_beside s _

theorem endTest_deeds (s : State) (c : Nat) (r : LensResult) (a : Option Nat) : Deeds s (s.endTest c r a) :=
  ((record_beside s _).deeds.trans (leaveTesting_deeds _ c a)).trans ((putOutLamp_beside _ c).trans (setLens_beside _ _)).deeds

theorem handOver_beside (s : State) (c gain : Nat) (st : Standing) : Beside s (s.handOver c gain st) := by
  unfold State.handOver
  split
  · exact setChannel_beside s c _
  · exact .refl s

theorem completeWindow_deeds (s : State) (c : Nat) : Deeds s (s.completeWindow c) := by
  unfold State.completeWindow
  split
  · exact .refl
  · exact (handOver_beside s c _ _).deeds.trans (endTest_deeds _ c _ _)

theorem countFlagged_deeds (s : State) (c n p : Nat) : Deeds s (s.countFlagged c n p) := by
  unfold State.countFlagged
  dsimp only
  split
  · exact (setLens_beside s _).deeds.trans (completeWindow_deeds _ c)
  · exact (setLens_beside s _).deeds

theorem lensSample_deeds (s : State) (c level : Nat) (flag : Bool) : Deeds s (s.lensSample c level flag) := by
  unfold State.lensSample
  split
  · exact .refl
  · split
    · exact endTest_deeds s c _ _
    · split
      · exact countFlagged_deeds s c _ _
      · exact endTest_deeds s c _ _
      · exact countFlagged_deeds s c _ _
      · exact .refl

theorem deliverLight_deeds (s : State) (c level : Nat) (flag : Bool) (gap : Nat) : Deeds s (s.deliverLight c level flag gap) := by
  unfold State.deliverLight
  split
  · exact .refl
  · dsimp only
    split
    · exact (setChannel_beside s c _).deeds.trans (processDelivered_deeds _ c _ _)
    · exact (setChannel_beside s c _).deeds.trans (processDelivered_deeds _ c _ _)
    · exact (setChannel_beside s c _).deeds.trans (lensSample_deeds _ c _ _)
    · exact (setChannel_beside s c _).deeds

theorem startWaitExpiry_deeds (s : State) : Deeds s s.startWaitExpiry := by
  unfold State.startWaitExpiry
  split
  · exact endTest_deeds s _ _ _
  · exact .refl

theorem testWindowComplete_deeds (s : State) : Deeds s s.testWindowComplete := by
  unfold State.testWindowComplete
  split
  · split
    · exact countFlagged_deeds s _ _ _
    · exact .refl
  · exact .refl

theorem lensNodeStale_deeds (s : State) (n : Nat) : Deeds s (s.lensNodeStale n) := by
  unfold State.lensNodeStale
  split
  · exact .refl
  · exact .refl
  · split
    · exact endTest_deeds s _ _ _
    · exact .refl

theorem testLens_deeds (s : State) (c : Nat) : Deeds s (s.testLens c).1 := by
  unfold State.testLens
  split
  · exact (((setLens_beside s _).trans (disturb_beside _)).deeds.trans (startTesting_deeds _ c)).trans
      ((offerTest_beside _ _).trans (setLens_beside _ _)).deeds
  · exact .refl

end Sys2Proof.Machine
end

section
/-! SUPPORT. What one command is for the orders, the trip lines and the TRIPPED sections: a run of deeds, or an activation or a reset; and
the rule for an invariant of these parts. -/

namespace Sys2Proof.Machine

open Sys2Proof.Safety
open Relation (ReflTransGen)

/-! ## Loop Port -/

theorem queueWaitingClaim_beside (s : State) : Beside s s.queueWaitingClaim := by
  unfold State.queueWaitingClaim
  split
  · exact (setLoop_beside s _).trans (pushControl_beside _ _)
  · exact .refl s

theorem offerHeldTests_beside (s : State) (n : Nat) : Beside s (s.offerHeldTests n) := by
  induction n generalizing s with
  | zero => exact .refl s
  | succ n ih =>
    unfold State.offerHeldTests
    split
    · exact .refl s
    · split
      · exact ((setLens_beside s _).trans (pushControl_beside _ _)).trans (ih _)
      · exact .refl s

theorem queueHeldTests_beside (s : State) : Beside s s.queueHeldTests := by
  unfold State.queueHeldTests
  split
  · exact .refl s
  · exact offerHeldTests_beside s _

theorem offerHeldResponses_beside (s : State) (n : Nat) : Beside s (s.offerHeldResponses n) := by
  induction n generalizing s with
  | zero => exact .refl s
  | succ n ih =>
    unfold State.offerHeldResponses
    split
    · exact .refl s
    · split
      · exact ((setHeld_beside s _).trans (pushRoutine_beside _ _)).trans (ih _)
      · exact .refl s

theorem tellControlRoom_beside (s : State) : Beside s s.tellControlRoom :=
  (queueWaitingClaim_beside s).trans (queueHeldTests_beside _)

theorem settleRoom_beside (s : State) : Beside s s.settleRoom :=
  (tellControlRoom_beside s).trans (offerHeldResponses_beside _ _)

theorem enterClaiming_beside (s : State) : Beside s s.enterClaiming :=
  (setLoop_beside s _).trans (queueWaitingClaim_beside _)

theorem queueOrSkip_beside (s : State) (f : ControlFrame) : Beside s (s.queueOrSkip f) := by
  unfold State.queueOrSkip
  split
  · exact pushControl_beside s f
  · exact .refl s

theorem supervisionReturns_beside (s : State) : Beside s s.supervisionReturns := by
  unfold State.supervisionReturns
  split
  · exact setLoop_beside s _
  · exact .refl s

theorem beaconReturns_beside (s : State) : Beside s s.beaconReturns := by
  unfold State.beaconReturns
  split
  · exact (enterClaiming_beside s).trans (settleRoom_beside _)
  · exact .refl s

theorem claimReturns_beside (s : State) (seq : Byte) (p : List Byte) : Beside s (s.claimReturns seq p) := by
  unfold State.claimReturns
  split
  · exact .refl s
  · split
    · exact ((setLoop_beside s _).trans (record_beside _ _)).trans (setLoop_beside _ _)
    · exact .refl s

theorem supervisionSendExpiry_beside (s : State) : Beside s s.supervisionSendExpiry := by
  unfold State.supervisionSendExpiry
  split
  · exact (setLoop_beside s _).trans (queueOrSkip_beside _ _)
  · exact .refl s

theorem beaconExpiry_beside (s : State) : Beside s s.beaconExpiry := by
  unfold State.beaconExpiry
  split
  · exact (setLoop_beside s _).trans (queueOrSkip_beside _ _)
  · exact .refl s

theorem claimSent_beside (s : State) (x : Sending) : Beside s (s.claimSent x) := by
  unfold State.claimSent
  split
  · exact setLoop_beside s _
  · exact .refl s

theorem recomputeCut_deeds (s : State) : Deeds s s.recomputeCut :=
  ((setLoop_beside s _).deeds.trans (deeds_foldl enterCut_deeds _ _)).trans
    (deeds_foldl (fun u b => (withdrawTrip_beside u b).deeds) _ _)

theorem enterOpen_deeds (s : State) (c : OpenCause) : Deeds s (s.enterOpen c) :=
  (((setLoop_beside s _).trans (tellControlRoom_beside _)).deeds.trans (recomputeCut_deeds _)).trans
    (((record_beside _ _).trans (queueOrSkip_beside _ _)).trans (setLoop_beside _ _)).deeds

theorem claimExpiry_deeds (s : State) : Deeds s s.claimExpiry := by
  unfold State.claimExpiry
  split
  · exact enterOpen_deeds s _
  · exact .refl

theorem supervisionExpiry_deeds (s : State) : Deeds s s.supervisionExpiry := by
  unfold State.supervisionExpiry
  split
  · exact enterOpen_deeds s _
  · exact .refl

theorem loopActivation_deeds (s : State) : Deeds s s.loopActivation := by
  unfold State.loopActivation
  split
  · dsimp only
    split
    · exact (setLoop_beside s _).deeds
    · exact ((setLoop_beside s _).trans (record_beside _ _)).deeds
  · exact recomputeCut_deeds s
  · exact .refl

/-! ## Node Admission -/

theorem deliver_deeds (s : State) (n gap : Nat) (c : Contents) : Deeds s (s.deliver n gap c) := by
  cases c with
  | light xs => exact deliverAll_keeps (fun _ => .refl) ReflTransGen.trans (fun s c x => deliverLight_deeds s c _ _ _) 0 xs s
  | current xs => exact deliverAll_keeps (fun _ => .refl) ReflTransGen.trans (fun s p x => deliverPoint_deeds s p _ x) 0 xs s
  | positions xs => exact deliverAll_keeps (fun _ => .refl) ReflTransGen.trans (fun s b x => deliverPosition_deeds s b x) 0 xs s

theorem tellStale_deeds (n : Nat) (s : State) : Deeds s (State.tellStale n s) := by
  unfold State.tellStale
  exact (((deeds_foldl channelStale_deeds (s.channelsOfNode n) s).trans (deeds_foldl pointStale_deeds _ _)).trans
    (deeds_foldl (fun u b => (positionUnknown_beside u b).deeds) _ _)).trans (lensNodeStale_deeds _ n)

theorem tellLive_deeds (n : Nat) (s : State) : Deeds s (State.tellLive n s) :=
  (deeds_foldl channelLive_deeds _ s).trans (deeds_foldl pointLive_deeds _ _)

theorem tellNeighbours_deeds {tell : State → State} (h : ∀ s, Deeds s (tell s)) (s : State) : Deeds s (s.tellNeighbours tell) := by
  have drawn : Beside s { s with draws := s.draws + 1 } := .of_same rfl rfl rfl rfl
  unfold State.tellNeighbours
  split
  · dsimp only
    split
    · exact (drawn.deeds.trans (recomputeCut_deeds _)).trans (h _)
    · exact (drawn.deeds.trans (h _)).trans (recomputeCut_deeds _)
  · exact h s

/-- The record of a node that is heard or lost, and the record of the event (R30, R32). -/
theorem toldOf_beside (s : State) (n : Nat) (r : NodeRec) (e : RecordBody) : Beside s (s.toldOf n r e) :=
  (setNode_beside s n r).trans (record_beside _ e)

theorem becomeLive_deeds (s : State) (n : Nat) (r : NodeRec) (seq : Byte) : Deeds s (s.becomeLive n r seq) := by
  rw [becomeLive_eq]
  exact ((toldOf_beside s n _ _).deeds.trans (tellNeighbours_deeds (tellLive_deeds n) _)).trans (setNode_beside _ n _).deeds

theorem stayLive_beside (s : State) (n : Nat) (seq : Byte) (d : Nat) : Beside s (s.stayLive n seq d) := by
  unfold State.stayLive
  dsimp only
  split
  · exact (setNode_beside s n _).trans (record_beside _ _)
  · exact setNode_beside s n _

theorem nodeFrame_deeds (s : State) (k : NodeKind) (source seq : Byte) (p : List Byte) : Deeds s (s.nodeFrame k source seq p) := by
  unfold State.nodeFrame
  split
  · exact .refl
  · split
    · exact .refl
    · split
      · exact .refl
      · unfold State.acceptFrame
        split
        · dsimp only
          split
          · exact .refl
          · exact (stayLive_beside s _ _ _).deeds.trans (deliver_deeds _ _ _ _)
        · exact (becomeLive_deeds s _ _ _).trans (deliver_deeds _ _ _ _)

theorem inFrame_deeds (s : State) (k : NodeKind) (source seq : Byte) (p : List Byte) (brings : Nat → Nat → Contents → Bool) :
    Deeds s (s.inFrame k source seq p brings) := by
  rcases inFrame_cases s k source seq p brings with h | h <;> rw [h]
  exact nodeFrame_deeds s k source seq p

theorem staleExpiry_deeds (s : State) (n : Nat) : Deeds s (s.staleExpiry n) := by
  unfold State.staleExpiry
  split
  · split
    · exact (toldOf_beside s n _ _).deeds.trans (tellNeighbours_deeds (tellStale_deeds n) _)
    · exact .refl
  · exact .refl

/-! ## Management Agent, Setting Store and Supply Monitor -/

theorem respond_beside (s : State) (r : Response) : Beside s (s.respond r) := by
  unfold State.respond
  split
  · exact pushRoutine_beside s r
  · exact setHeld_beside s _

/-- An operation apart from the records that leaves the Trip Dispatcher alone. -/
theorem Apart.beside {s t : State} (h : Apart s t) (trip : t.trip = s.trip) : Beside s t :=
  .of_same h.active (congrArg _ trip) (congrArg _ trip) (congrArg _ h.sections)

theorem serveReadEvents_trip (ps : List Byte) (s : State) : (serveReadEvents ps s).1.trip = s.trip := by
  unfold serveReadEvents
  repeat' split
  all_goals rfl

theorem serveWriteShadow_trip (ps : List Byte) (s : State) : (serveWriteShadow ps s).1.trip = s.trip := by
  unfold serveWriteShadow
  repeat' split
  all_goals rfl

theorem serveDiscardShadow_trip (ps : List Byte) (s : State) : (serveDiscardShadow ps s).1.trip = s.trip := by
  unfold serveDiscardShadow
  repeat' split
  all_goals rfl

theorem serveRelease_deeds (ps : List Byte) (s : State) : Deeds s (serveRelease ps s).1 := by
  unfold serveRelease
  split
  · exact .single (.releases s _)
  · exact .refl

theorem serveSetMaintenance_deeds (ps : List Byte) (s : State) : Deeds s (serveSetMaintenance ps s).1 := by
  unfold serveSetMaintenance
  split
  · split
    · exact setMaintenance_deeds s _ _
    · exact .refl
  · exact .refl

theorem serveSetBlock_deeds (ps : List Byte) (s : State) : Deeds s (serveSetBlock ps s).1 := by
  unfold serveSetBlock
  split
  · split
    · exact setBlockOn_deeds s _
    · exact setBlockOff_deeds s _
    · exact .refl
  · exact .refl

theorem serveTestLens_deeds (ps : List Byte) (s : State) : Deeds s (serveTestLens ps s).1 := by
  unfold serveTestLens
  split
  · exact testLens_deeds s _
  · exact .refl

theorem serveReclaim_beside (ps : List Byte) (s : State) : Beside s (serveReclaim ps s).1 := by
  unfold serveReclaim
  split
  · exact (enterClaiming_beside s).trans (settleRoom_beside _)
  · exact .refl s

theorem serveCode_deeds (code source tag : Byte) (ps : List Byte) (s : State) : Deeds s (serveCode code source tag ps s).1 := by
  have reading := serveReading_same code source tag ps s
  unfold serveCode at reading ⊢
  split
  case h_2 => exact ((serveReadEvents_apart ps s).beside (serveReadEvents_trip ps s)).deeds
  case h_6 => exact ((serveWriteShadow_apart ps s).beside (serveWriteShadow_trip ps s)).deeds
  case h_7 => exact ((serveDiscardShadow_apart ps s).beside (serveDiscardShadow_trip ps s)).deeds
  case h_8 => exact ((serveActivate_apart source tag ps s).beside (serveActivate_trip source tag ps s)).deeds
  case h_9 => exact serveRelease_deeds ps s
  case h_10 => exact serveSetMaintenance_deeds ps s
  case h_11 => exact serveSetBlock_deeds ps s
  case h_12 => exact serveTestLens_deeds ps s
  case h_13 => exact (serveReclaim_beside ps s).deeds
  case h_14 => exact ((serveSoftReset_apart ps s).beside (serveSoftReset_trip ps s)).deeds
  all_goals
    rename_i e
    rw [e] at reading
    rw [reading (by simp)]

theorem takeRequest_deeds (source tag code : Byte) (ps : List Byte) (s : State) :
    Deeds s (s.takeRequest source tag code (serveCode code source tag ps)) := by
  have serves := serveCode_deeds code source tag ps s
  rcases takeRequest_cases s source tag code (serveCode code source tag ps) with e | ⟨r, e⟩ | e <;> rw [e]
  · exact serves.trans (respond_beside _ r).deeds
  · exact serves

/-- A frame of the loop is a run of deeds (R3, R4). -/
theorem receive_deeds (s : State) (bytes : List Byte) : Deeds s (s.receive bytes) := by
  unfold State.receive State.goodFrame
  split
  · split
    · split
      · exact (supervisionReturns_beside s).deeds
      · exact (beaconReturns_beside s).deeds
      · exact (claimReturns_beside s _ _).deeds
      · exact .refl
    · split
      · exact .refl
      · split
        · exact nodeFrame_deeds s _ _ _ _
        · exact nodeFrame_deeds s _ _ _ _
        · exact nodeFrame_deeds s _ _ _ _
        · unfold State.requestFrame
          split
          · exact takeRequest_deeds _ _ _ _ s
          · exact .refl
        · exact .refl
  · exact .refl

theorem storeComplete_beside (s : State) (a : Bool) : Beside s (s.storeComplete a) := by
  unfold State.storeComplete
  split
  · exact .of_same rfl rfl rfl rfl
  · exact .refl s

theorem warningFall_beside (s : State) : Beside s s.warningFall := by
  unfold State.warningFall
  split
  · exact .refl s
  · exact .of_same rfl rfl rfl rfl

theorem warningRise_beside (s : State) : Beside s s.warningRise := by
  unfold State.warningRise
  split
  · exact .of_same rfl rfl rfl rfl
  · exact .refl s

/-! ## An activation (R161) -/

/-- Sections that are not TRIPPED are recomputed in turn: what one of them becomes leaves the others (R102). -/
theorem recomputeAll_deeds (l : List Nat) (once : l.Nodup) (s : State)
    (untripped : ∀ i ∈ l, i < Config.sectionCount ∧ (s.sectionRec i).state ≠ .tripped) : Deeds s (l.foldl State.recompute s) := by
  induction l generalizing s with
  | nil => exact .refl
  | cons i l ih =>
    rw [List.nodup_cons] at once
    obtain ⟨own, once⟩ := once
    obtain ⟨known, calm⟩ := untripped i List.mem_cons_self
    obtain ⟨_, becomes, -⟩ := recompute_becomes s known
    refine (recompute_deeds known calm).trans (ih once _ fun j mem => ?_)
    rw [becomes.others j fun same => own (same ▸ mem)]
    exact untripped j (List.mem_cons_of_mem i mem)

theorem recomputeSections_deeds {s : State} (untripped : ∀ i, i < Config.sectionCount → (s.sectionRec i).state ≠ .tripped) :
    Deeds s s.recomputeSections := by
  obtain ⟨-, -, -, trip, -, -, -, agent, records⟩ := refreshView_same s
  have viewed : Beside s s.refreshView := .of_same (congrArg _ agent) (congrArg _ trip) (congrArg _ trip) records
  refine viewed.deeds.trans (recomputeAll_deeds _ List.nodup_range _ fun i mem => ?_)
  have known := List.mem_range.1 mem
  rw [State.sectionRec_congr records]
  exact ⟨known, untripped i known⟩

/-- From the new tables on, the activation of an undisturbed validation is a run of deeds: no section is TRIPPED then (R158, R159). -/
theorem swap_deeds {s : State} (quiet : s.quiet = true) : Deeds s.newTables s.swap := by
  obtain ⟨-, calm, -⟩ := (quiet_iff s).1 quiet
  have written : ∀ u : State, Beside u u.beginStoreWrite := fun u => .of_same rfl rfl rfl rfl
  have sections : s.newTables.loopActivation.sections = s.sections :=
    (loopActivation_kept _).sections.trans (newTables_sections s)
  rw [swap_eq]
  refine ((loopActivation_deeds _).trans (recomputeSections_deeds fun i known tripped => ?_)).trans (written _).deeds
  rw [State.sectionRec_congr (congrArg _ sections)] at tripped
  exact calm i known (.inr tripped)

theorem endValidation_beside (s : State) : Beside s s.endValidation := .of_same rfl rfl rfl rfl

/-! ## One step -/

/-- What an invariant of the orders, the trip lines and the TRIPPED sections needs to be kept by every step: the deeds keep it, and so do
an activation, which finds no order, the resets and the passing of time. -/
structure KeptByDeeds (I : State → Prop) : Prop where
  deed : ∀ {s t : State}, Deed s t → I s → I t
  newTables : ∀ {s : State}, s.trip.orders = [] → I s → I s.newTables
  softBase : ∀ {s : State}, I s → I s.softBase
  empty : ∀ {s : State}, s.trip.orders = [] → s.trip.lines = Vector.replicate _ .reset → I s
  tick : ∀ {s : State}, Up s → I s → I s.tick

theorem hardBase_lines (s : State) (h : HardReset) (mv : Nat) : (s.hardBase h mv).trip.lines = Vector.replicate _ .reset := by
  unfold State.hardBase
  dsimp only
  split <;> rfl

section
variable {I : State → Prop} (k : KeptByDeeds I)
include k

theorem KeptByDeeds.run {s t : State} (h : Deeds s t) (i : I s) : I t := by
  induction h with
  | refl => exact i
  | tail _ deed ih => exact k.deed deed ih

theorem KeptByDeeds.beside {s t : State} (h : Beside s t) : I s → I t := k.deed (.beside h)

theorem KeptByDeeds.performSoftReset {s : State} (i : I s) : I s.performSoftReset :=
  k.beside (enterClaiming_beside _) (k.softBase i)

theorem KeptByDeeds.sendingCompletes {s : State} (i : I s) : I s.sendingCompletes := by
  unfold State.sendingCompletes
  split
  · exact i
  · split
    · exact k.performSoftReset i
    · exact k.beside (((claimSent_beside s _).trans (startNext_beside _)).trans (settleRoom_beside _)) i

theorem KeptByDeeds.validationCompletes {s : State} (quiet : QuietWhileUndisturbed s) (i : I s) : I s.validationCompletes := by
  have ends : ∀ (u : State) (r : Response), Beside u (u.endValidation.respond r) := fun u r =>
    (endValidation_beside u).trans (respond_beside _ r)
  unfold State.validationCompletes
  split
  next validating _ =>
    split
    · exact k.beside (ends s _) i
    next calm =>
      split
      · exact k.beside (ends s _) i
      · have still := quiet validating (by simpa using calm)
        obtain ⟨none, -, -⟩ := (quiet_iff s).1 still
        exact k.beside (ends _ _) (k.run (swap_deeds still) (k.newTables none i))
  · exact i

theorem KeptByDeeds.beginHardReset {s : State} (d : Bool) (i : I s) : I (s.beginHardReset d) := by
  unfold State.beginHardReset
  split
  · exact k.beside (s := s) (.of_same rfl rfl rfl rfl) i
  · exact k.empty rfl rfl

theorem KeptByDeeds.loseRetention {s : State} (i : I s) : I s.loseRetention :=
  k.beside (s := s.beginHardReset true) (.of_same rfl rfl rfl rfl) (k.beginHardReset true i)

theorem KeptByDeeds.endHardReset {s : State} (mv : Nat) (i : I s) : I (s.endHardReset mv) := by
  unfold State.endHardReset
  split
  · split
    · exact k.beside (enterClaiming_beside _) (k.empty (hardBase_orders s _ mv) (hardBase_lines s _ mv))
    · exact i
  · exact i

/-- Every command keeps the invariant. -/
theorem KeptByDeeds.exec {s t : State} {c : Instr} (quiet : QuietWhileUndisturbed s) (run : Machine.exec c s = .next t) (i : I s) :
    I t := by
  have acts : ∀ {f : State → State}, I (f s) → I (s.outsideReset f) := fun h => by
    unfold State.outsideReset
    split
    · exact i
    · exact h
  have deeds : ∀ {f : State → State}, Deeds s (f s) → I (s.outsideReset f) := fun h => acts (k.run h i)
  have beside : ∀ {f : State → State}, Beside s (f s) → I (s.outsideReset f) := fun h => acts (k.beside h i)
  have requests : ∀ {source tag code : Byte} {ps : List Byte},
      I (s.outsideReset fun s => s.takeRequest source tag code (serveCode code source tag ps)) := deeds (takeRequest_deeds _ _ _ _ s)
  cases c <;> cases run
  case frameArrival bytes => exact deeds (receive_deeds s bytes)
  case supervision => exact beside (supervisionReturns_beside s)
  case beacon => exact beside (beaconReturns_beside s)
  case claim seq payload => exact beside (claimReturns_beside s seq payload)
  case claimTimerExpiry => exact deeds (claimExpiry_deeds s)
  case supervisionSendTimerExpiry => exact beside (supervisionSendExpiry_beside s)
  case supervisionTimerExpiry => exact deeds (supervisionExpiry_deeds s)
  case beaconTimerExpiry => exact beside (beaconExpiry_beside s)
  case sendingComplete => exact acts (k.sendingCompletes i)
  case claimQueuedAtRoom => exact beside (queueWaitingClaim_beside s)
  case heldTestFrameQueued => exact beside (queueHeldTests_beside s)
  case heldResponseQueued => exact beside (offerHeldResponses_beside s _)
  case lightSample source seq payload => exact deeds (nodeFrame_deeds s .light source seq payload)
  case currentSample source seq payload => exact deeds (nodeFrame_deeds s .current source seq payload)
  case position source seq payload => exact deeds (nodeFrame_deeds s .breaker source seq payload)
  case staleTimerExpiry n => exact deeds (staleExpiry_deeds s n)
  case flickerWindowClose e => exact deeds (inFrame_deeds s _ _ _ _ _)
  case stretchExpiry e => exact deeds (inFrame_deeds s _ _ _ _ _)
  case persistenceTimerExpiry j => exact beside (persistenceExpiry_beside s j)
  case resendTimerExpiry b => exact beside (resendExpiry_beside s b)
  case failureTimerExpiry b => exact deeds (failureExpiry_deeds s b)
  case minimumPulseTimerExpiry l => exact deeds (.single (.pulse s l))
  case startWaitTimerExpiry => exact deeds (startWaitExpiry_deeds s)
  case testWindowComplete => exact deeds (testWindowComplete_deeds s)
  case validationComplete => exact acts (k.validationCompletes quiet i)
  case storeWriteComplete agrees => exact beside (storeComplete_beside s agrees)
  case softResetTakesEffect =>
    refine acts ?_
    split
    · exact k.performSoftReset i
    · exact i
  case supplyWarningFall => exact beside (warningFall_beside s)
  case supplyWarningRise => exact beside (warningRise_beside s)
  case supplyDipReset => exact k.beginHardReset true i
  case resetnLow => exact k.beginHardReset false i
  case hardResetEnd mv => exact k.endHardReset mv i
  case supplyBelowRetention => exact k.loseRetention i
  case setBlockOn source tag sect => exact requests (code := 0x22) (ps := [sect, 1])
  case setBlockOff source tag sect => exact requests (code := 0x22) (ps := [sect, 0])
  all_goals exact requests

/-- Every step keeps the invariant. -/
theorem KeptByDeeds.step {s t : State} (quiet : QuietWhileUndisturbed s) (run : Machine.step s = .next t) (i : I s) : I t := by
  unfold Machine.step at run
  split at run
  next rest _ =>
    exact k.exec (s := { s with pending := rest }) quiet run (k.beside (s := s) (.of_same rfl rfl rfl rfl) i)
  · split at run
    · exact k.exec quiet run i
    · cases run
      by_cases up : Up s
      · exact k.tick up i
      · unfold State.tick
        rw [if_pos (Option.isSome_iff_ne_none.2 up)]
        exact i

end

end Sys2Proof.Machine
end

section
/-! SUPPORT. The causes and the depths of the orders (R109, R111, R112, R120): an order that is asked for with causes of a kind that merges
keep leaves every order's causes of that kind, and every depth at most 2. -/

namespace Sys2Proof.Machine

open Sys2Proof.Safety

/-! ## Orders with causes of a kind -/

/-- Every order's causes are of a kind, and its depth is at most 2. -/
def OrdersWithin (kind : SectionSet → Prop) (s : State) : Prop := ∀ o ∈ s.trip.orders, kind o.causes ∧ o.depth ≤ 2

/-- Every order of `t` has the causes and the depth of some order of `s`. -/
def OrdersFrom (s t : State) : Prop := ∀ o ∈ t.trip.orders, ∃ p ∈ s.trip.orders, p.causes = o.causes ∧ p.depth = o.depth

theorem OrdersFrom.within {kind : SectionSet → Prop} {s t : State} (h : OrdersFrom s t) (i : OrdersWithin kind s) :
    OrdersWithin kind t := by
  intro o mem
  obtain ⟨p, own, causes, depth⟩ := h o mem
  rw [← causes, ← depth]
  exact i p own

theorem OrdersFrom.of_eq {s t : State} (h : t.trip.orders = s.trip.orders) : OrdersFrom s t := fun o mem => ⟨o, h ▸ mem, rfl, rfl⟩

theorem Beside.ordersFrom {s t : State} (h : Beside s t) : OrdersFrom s t := by
  intro o mem
  have gist : o.gist ∈ s.gists := h.gists ▸ List.mem_map_of_mem mem
  obtain ⟨p, own, same⟩ := List.mem_map.1 gist
  simp only [Order.gist, Prod.mk.injEq] at same
  exact ⟨p, own, same.2.2⟩

/-- A change of the causes and of the depth of no order. -/
theorem OrdersFrom.of_map {s t : State} {f : Order → Order} (h : t.trip.orders = s.trip.orders.map f)
    (same : ∀ o, (f o).causes = o.causes ∧ (f o).depth = o.depth := by exact fun _ => ⟨rfl, rfl⟩) : OrdersFrom s t := by
  intro o mem
  rw [h] at mem
  obtain ⟨p, own, rfl⟩ := List.mem_map.1 mem
  exact ⟨p, own, (same p).1.symm, (same p).2.symm⟩

theorem updateOrder_from (s : State) (b : Nat) (f : Order → Order)
    (same : ∀ o, (f o).causes = o.causes ∧ (f o).depth = o.depth := by exact fun _ => ⟨rfl, rfl⟩) :
    OrdersFrom s (s.updateOrder b f) :=
  .of_map (State.updateOrder_orders s b f) fun o => by
    split
    · exact same o
    · exact ⟨rfl, rfl⟩

theorem openOrder_from (s : State) (o : Order) : OrdersFrom s (s.openOrder o) := by
  have opened := updateOrder_from s o.breaker fun o => { o with state := .opened, failure := .stopped, resend := .stopped }
  intro p mem
  unfold State.openOrder at mem
  rw [(reconsiderLine_same _ _).1] at mem
  exact opened p mem

theorem pulseExpiry_from (s : State) (l : Nat) : OrdersFrom s (s.pulseExpiry l) := .of_eq (pulseExpiry_aside s l).orders

/-! ## Askings -/

section
variable {kind : SectionSet → Prop} {ask : Nat → SectionSet → Nat → State → State}

/-- What an operation is given to nest keeps the kind of the orders' causes when it is asked with causes of the kind. -/
abbrev AskWithin (kind : SectionSet → Prop) (ask : Nat → SectionSet → Nat → State → State) : Prop :=
  ∀ b c d s, kind c → d ≤ 2 → OrdersWithin kind s → OrdersWithin kind (ask b c d s)

theorem asks_within (h : AskWithin kind ask) {c : SectionSet} {d : Nat} (causes : kind c) (depth : d ≤ 2) (bs : List Nat) (s : State)
    (i : OrdersWithin kind s) : OrdersWithin kind (bs.foldl (fun s b => ask b c d s) s) := by
  induction bs generalizing s with
  | nil => exact i
  | cons b bs ih => exact ih _ (h b c d s causes depth i)

theorem failWith_within (h : AskWithin kind ask) (b : Nat) (r : FailReason) {s : State} (i : OrdersWithin kind s) :
    OrdersWithin kind (s.failWith ask b r) := by
  unfold State.failWith
  split
  next o ho =>
    obtain ⟨causes, -⟩ := i o (order_mem ho)
    have failed : OrdersWithin kind (s.markFailed o r) :=
      (updateOrder_from s o.breaker fun o => { o with state := .failed, failure := .stopped }).within i
    unfold State.escalate
    split
    · exact failed
    next deeper =>
      split
      · exact failed
      · exact asks_within h causes (Nat.lt_of_not_le deeper) _ _ failed
  · exact i

theorem failIfCut_within (h : AskWithin kind ask) (b : Nat) {s : State} (i : OrdersWithin kind s) :
    OrdersWithin kind (s.failIfCut ask b) := by
  unfold State.failIfCut
  split
  · exact failWith_within h b .cut i
  · exact i

/-- An order that has become ISSUED is sent, drives its line, and fails at once if it must (R111, R117, R122). -/
theorem issued_within (h : AskWithin kind ask) (b : Nat) {s : State} (i : OrdersWithin kind s) :
    OrdersWithin kind (((s.attemptSend b).driveLine b).failIfCut ask b) :=
  failIfCut_within h b ((OrdersFrom.of_eq (driveLine_orders _ b)).within ((attemptSend_beside s b).ordersFrom.within i))

theorem createOrder_within (h : AskWithin kind ask) (b : Nat) (p : Position) {c : SectionSet} {d : Nat} (causes : kind c) (depth : d ≤ 2)
    {s : State} (i : OrdersWithin kind s) : OrdersWithin kind (s.createOrder ask b p c d) := by
  have appended : OrdersWithin kind (((s.setOrders (s.trip.orders ++ [s.newOrder b p c d])).disturb).record
      (orderRecord .orderIssued (s.newOrder b p c d) (value2 d (s.newOrder b p c d).state.code))) := by
    refine ((disturb_beside _).trans (record_beside _ _)).ordersFrom.within fun o mem => ?_
    rw [State.setOrders_orders, List.mem_append, List.mem_singleton] at mem
    rcases mem with old | rfl
    · exact i o old
    · obtain ⟨-, own, deep⟩ := newOrder_fields s b p c d
      rw [own, deep]
      exact ⟨causes, depth⟩
  unfold State.createOrder
  dsimp only
  split
  · exact appended
  · exact issued_within h b appended

theorem mergeOrder_within (merges : ∀ {x y}, kind x → kind y → kind (x ||| y)) (h : AskWithin kind ask) {o : Order} {c : SectionSet}
    {d : Nat} {s : State} (stands : o ∈ s.trip.orders) (causes : kind c) (i : OrdersWithin kind s) :
    OrdersWithin kind (s.mergeOrder ask o c d) := by
  have merged : ∀ p ∈ s.trip.orders, kind (p.mergeWith c d).causes ∧ (p.mergeWith c d).depth ≤ 2 := fun p mem => by
    obtain ⟨own, deep⟩ := i p mem
    exact ⟨merges own causes, (min_le_left _ _).trans deep⟩
  have updated : OrdersWithin kind (s.updateOrder o.breaker fun o => o.mergeWith c d) := by
    intro q mem
    obtain ⟨p, own, rfl⟩ := List.mem_map.1 mem
    split
    · exact merged p own
    · exact i p own
  unfold State.mergeOrder
  dsimp only
  split
  next again => exact asks_within h (merged o stands).1 again.2.2 _ _ updated
  next => exact updated

/-- However deep askings nest, they keep the kind of the orders' causes (R112, R120). -/
theorem askOrder_within (merges : ∀ {x y}, kind x → kind y → kind (x ||| y)) (fuel : Nat) : AskWithin kind (askOrder fuel) := by
  induction fuel with
  | zero => exact fun _ _ _ _ _ _ i => i
  | succ n ih =>
    intro b c d s causes depth i
    unfold askOrder
    split
    next ho => exact mergeOrder_within merges ih (order_mem ho) causes i
    · exact createOrder_within ih b _ causes depth i
    · exact i

end

/-! ## Causes that are TRIPPED (R109) -/

/-- A cause set that is not empty and holds TRIPPED sections alone. -/
def State.founds (s : State) (c : SectionSet) : Prop :=
  c ≠ 0 ∧ ∀ i, i < Config.sectionCount → c.getLsbD i = true → (s.sectionRec i).state = .tripped

theorem founds_union (s : State) {x y : SectionSet} (h : s.founds x) (k : s.founds y) : s.founds (x ||| y) := by
  obtain ⟨some_x, trips_x⟩ := h
  obtain ⟨-, trips_y⟩ := k
  refine ⟨fun none => some_x ?_, fun i known bit => ?_⟩
  · ext i hi
    have := congrArg (fun z : SectionSet => z.getLsbD i) none
    simp at this ⊢
    exact this.1
  · rw [BitVec.getLsbD_or, Bool.or_eq_true] at bit
    exact bit.elim (trips_x i known) (trips_y i known)

theorem ask_within (s : State) : AskWithin s.founds State.ask := askOrder_within (founds_union s) _

/-- What a cause set rests on are the TRIPPED sections. -/
theorem founds_congr {s t : State} (tripped : ∀ i, (s.sectionRec i).state = .tripped → (t.sectionRec i).state = .tripped)
    {c : SectionSet} (h : s.founds c) : t.founds c := ⟨h.1, fun i known bit => tripped i (h.2 i known bit)⟩

/-- Causes and depths as they must be: what `CausesTripped` and `DepthsBounded` say together. -/
abbrev CausesSound (s : State) : Prop := OrdersWithin s.founds s

theorem causesSound_iff (s : State) : CausesSound s ↔ CausesTripped s ∧ DepthsBounded s :=
  ⟨fun h => ⟨fun o mem => (h o mem).1, fun o mem => (h o mem).2⟩, fun h o mem => ⟨h.1 o mem, h.2 o mem⟩⟩

/-- Orders of a kind in one state are sound in another that has at least the TRIPPED sections of the kind. -/
theorem OrdersWithin.sound {s t : State} (h : OrdersWithin s.founds t)
    (tripped : ∀ i, (s.sectionRec i).state = .tripped → (t.sectionRec i).state = .tripped) : CausesSound t :=
  fun o mem => ⟨founds_congr tripped (h o mem).1, (h o mem).2⟩

theorem sectionRec_orders {s t : State} (h : KeptByOrders s t) (i : Nat) : t.sectionRec i = s.sectionRec i :=
  State.sectionRec_congr (congrArg _ h.sections) i

/-- An operation of the Trip Dispatcher trips no section and releases none. -/
theorem OrdersWithin.sound_of_orders {s t : State} (h : OrdersWithin s.founds t) (k : KeptByOrders s t) : CausesSound t :=
  h.sound fun i tripped => by rwa [sectionRec_orders k]

theorem sectionSet_ne_zero {i : Nat} (known : i < 16) : sectionSet i ≠ 0 := fun none => by
  have bit := sectionSet_getLsbD known i
  rw [none] at bit
  simp at bit

/-- A section that trips asks for orders that it alone causes (R89, R109). -/
theorem enterTripped_sound {s : State} {i : Nat} (known : i < Config.sectionCount) (c : Cause) (h : CausesSound s) :
    CausesSound (s.enterTripped i c) := by
  set u := s.enterTripped i c with hu
  have own : u.founds (sectionSet i) := by
    refine ⟨sectionSet_ne_zero known, fun j _ bit => ?_⟩
    rw [sectionSet_getLsbD known, decide_eq_true_eq] at bit
    subst bit
    rw [hu, sectionRec_enterTripped, sectionRec_setSection_own s known]
  have locked : ∀ j, (s.sectionRec j).state = .tripped → (u.sectionRec j).state = .tripped := (enterTripped_advances s i c).locked
  have within : OrdersWithin u.founds s := fun o mem => ⟨founds_congr locked (h o mem).1, (h o mem).2⟩
  exact asks_within (askOrder_within (founds_union u) _) own (Nat.zero_le 2) _ _
    ((OrdersFrom.of_eq (disturb_orders (s.setSection i _))).within within)

theorem reissueOrder_sound {s : State} {b : Nat} {o : Order} (ho : s.order b = some o) (p : Position) (h : CausesSound s) :
    CausesSound (s.reissueOrder o p) := by
  refine OrdersWithin.sound_of_orders ?_ (reissueOrder_kept s o p)
  rw [reissueOrder_eq ho]
  exact issued_within (ask_within s) b ((updateOrder_from s b _).within h)

/-! ## A release (R100, R126) -/

/-- An order that stands after the removal of a section has the order's other causes, at least one. -/
theorem Order.without_some {i : Nat} {o p : Order} (h : o.without i = some p) :
    p.causes = o.causes &&& ~~~ sectionSet i ∧ p.causes ≠ 0 ∧ p.depth = o.depth := by
  unfold Order.without at h
  split at h
  · cases h
  next others =>
    cases h
    exact ⟨rfl, others, rfl⟩

/-- A RELEASE leaves the state alone, or releases a section that is TRIPPED. -/
theorem release_cases (s : State) (i : Nat) : (s.release i).1 = s ∨ i < 16 ∧ (s.release i).1 = s.released i := by
  unfold State.release State.onSection
  split
  · exact .inl rfl
  · dsimp only
    split
    next accepted => exact .inr ⟨sectionRec_known (by rw [accepted.1]; exact nofun), rfl⟩
    · exact .inl rfl

/-- The orders that stand after a release have no part in the section released, and the other sections stay as they are. -/
theorem release_sound {s : State} (one : OneOrderPerBreaker s) (h : CausesSound s) (i : Nat) : CausesSound (s.release i).1 := by
  have others := (release_settles s i).others.state
  rcases release_cases s i with same | ⟨known, releases⟩
  · rwa [same]
  · rw [releases] at others ⊢
    intro p mem
    have standing : (s.released i).trip.orders = s.trip.orders.filterMap (Order.without i) :=
      (removeSection_removes one.1 (fun o mem => (h o mem).1.1) i).orders
    rw [standing, List.mem_filterMap] at mem
    obtain ⟨o, listed, stays⟩ := mem
    obtain ⟨causes, some_left, depth⟩ := Order.without_some stays
    obtain ⟨⟨-, trips⟩, deep⟩ := h o listed
    refine ⟨⟨some_left, fun j inTable bit => ?_⟩, depth ▸ deep⟩
    rw [causes, BitVec.getLsbD_and, BitVec.getLsbD_not, sectionSet_getLsbD known, Bool.and_eq_true] at bit
    obtain ⟨caused, elsewhere⟩ := bit
    exact (others j (by simpa [inTable] using elsewhere)).trans (trips j inTable caused)

/-! ## The invariant -/

theorem Deed.oneOrder {s t : State} (h : Deed s t) (i : OneOrderPerBreaker s) : OneOrderPerBreaker t := by
  cases h with
  | beside h =>
    refine oneOrder_of_ordered ?_ i
    have breakers : ∀ u : State, u.ordered = u.gists.map Prod.fst := fun u => by
      unfold State.ordered State.gists
      rw [List.map_map]
      rfl
    rw [breakers, breakers, h.gists]
  | trips known c => exact Demands.oneOrder (enterTripped_byDemands s _ c) i
  | fails r ho hi => exact Demands.oneOrder (failWith_byDemands ask_byDemands ho hi r) i
  | opens ho => exact Demands.oneOrder (openOrder_byDemands ho) i
  | reissues p ho => exact Demands.oneOrder (reissueOrder_byDemands ho p) i
  | pulse l => exact oneOrder_of_ordered (ordered_congr (pulseExpiry_aside s l).orders) i
  | releases j => exact Demands.oneOrder (release_byDemands s j) i

/-- Every deed keeps causes and depths as they must be. -/
theorem Deed.causesSound {s t : State} (h : Deed s t) (one : OneOrderPerBreaker s) (i : CausesSound s) : CausesSound t := by
  cases h with
  | beside h => exact (h.ordersFrom.within i).sound fun j => (h.tripped j).2
  | trips known c => exact enterTripped_sound known c i
  | fails r ho hi => exact (failWith_within (ask_within s) _ r i).sound_of_orders (failWith_kept ask_kept _ r s)
  | opens ho => exact ((openOrder_from s _).within i).sound_of_orders (openOrder_kept s _)
  | reissues p ho => exact reissueOrder_sound ho p i
  | pulse l => exact ((pulseExpiry_from s l).within i).sound_of_orders (pulseExpiry_kept s l)
  | releases j => exact release_sound one i j

theorem softBase_sound {s : State} (h : CausesSound s) : CausesSound s.softBase := by
  refine ((OrdersFrom.of_map (softBase_orders s)).within h).sound fun i tripped => ?_
  have known : i < 16 := sectionRec_known (by rw [tripped]; exact nofun)
  rw [softBase_sectionRec s known, if_pos tripped]
  exact tripped

theorem tick_sound {s : State} (up : Up s) (h : CausesSound s) : CausesSound s.tick :=
  ((OrdersFrom.of_map (tick_orders up)).within h).sound fun i tripped => (tick_sectionState up i).trans tripped

theorem causesSound_of_none {s : State} (h : s.trip.orders = []) : CausesSound s := fun o mem => by
  rw [h] at mem
  cases mem

theorem causesSound_keptByDeeds : KeptByDeeds fun s => OneOrderPerBreaker s ∧ CausesSound s where
  deed h i := ⟨h.oneOrder i.1, h.causesSound i.1 i.2⟩
  newTables {s} none _ := ⟨oneOrder_of_none ((newTables_orders s).trans none), causesSound_of_none ((newTables_orders s).trans none)⟩
  softBase {s} i := ⟨oneOrder_of_ordered (softBase_ordered s) i.1, softBase_sound i.2⟩
  empty none _ := ⟨oneOrder_of_none none, causesSound_of_none none⟩
  tick up i := ⟨oneOrder_of_ordered (tick_ordered up) i.1, tick_sound up i.2⟩

/-- One order on a breaker, and the quiet of an undisturbed validation. -/
abbrev QuietOrders (s : State) : Prop := OneOrderPerBreaker s ∧ QuietWhileUndisturbed s

theorem quietOrders_keptByChanges : KeptByChanges QuietOrders where
  change h i := ⟨h.oneOrder i.1, h.quiet i.2⟩
  queue _ i := i
  opens _ _ i := i
  livening _ _ i := i
  staling _ i := i
  newTables {s} v d i := by
    have ordered : s.newTables.ordered = s.ordered := ordered_congr (newTables_orders s)
    exact ⟨oneOrder_keptByChanges.newTables v d i.1, quiet_congr (s := s) (t := s.newTables) (by rw [ordered])
      (fun j => congrArg SectionRec.state (State.sectionRec_congr (congrArg SectionEvaluator.records (newTables_sections s)) j))
      (congrArg LensEngine.state (newTables_lens s)) (newTables_agent s).1 (newTables_agent s).2 i.2⟩
  softBase {s} i := ⟨oneOrder_keptByChanges.softBase i.1,
    quiet_of_idle ((congrArg Agent.state (State.setLoop_agent _ _)).trans (softBase_idle s))⟩
  hardBase {s} h mv i := ⟨oneOrder_keptByChanges.hardBase h mv i.1,
    quiet_of_idle ((congrArg Agent.state (State.setLoop_agent _ _)).trans (hardBase_idle s h mv))⟩
  begins {s} _ _ i := ⟨oneOrder_of_none rfl, quiet_congr (s := s) (List.nil_sublist _) (fun _ => rfl) rfl rfl rfl i.2⟩
  noted _ _ i := i
  tick {s} up i := by
    have agent := (tick_stays up).1
    exact ⟨oneOrder_keptByChanges.tick up i.1, quiet_congr (tick_ordered up ▸ .refl _) (tick_sectionState up) (tick_stays up).2
      (congrArg _ agent) (congrArg _ agent) i.2⟩

/-- Settles O55: what is asked for is caused by a section that has just tripped or by an order that stands, at most one step deeper. -/
theorem stepKeepsOrders : Obligations.stepKeepsOrders := by
  intro s t one causes depths quiet run
  obtain ⟨one', quiet'⟩ := quietOrders_keptByChanges.byStep.step run ⟨one, quiet⟩
  have sound := causesSound_keptByDeeds.step quiet run ⟨one, (causesSound_iff s).2 ⟨causes, depths⟩⟩
  obtain ⟨causes', depths'⟩ := (causesSound_iff t).1 sound.2
  exact ⟨one', causes', depths', quiet'⟩

end Sys2Proof.Machine
end

section
/-! SUPPORT. The trip lines and the orders held on them (R124): an order that becomes held drives its line, and one that stops being held
has its line reconsidered. -/

namespace Sys2Proof.Machine

open Sys2Proof.Safety

/-! ## Which lines are held -/

/-- A line is active exactly while an order is held on it or its minimum-pulse timer runs. -/
def State.lineFollows (s : State) (l : Nat) : Prop := (s.line l).active = (s.lineHeld l || (s.line l).pulse.isRunning)

/-- A line whose minimum-pulse timer runs is active. -/
def State.pulseActive (s : State) (l : Nat) : Prop := (s.line l).pulse.isRunning = true → (s.line l).active = true

theorem State.lineFollows.pulseActive {s : State} {l : Nat} (h : s.lineFollows l) : s.pulseActive l := fun running => by
  rw [h, running, Bool.or_true]

theorem State.lineFollows.active_of_held {s : State} {l : Nat} (h : s.lineFollows l) (held : s.lineHeld l = true) :
    (s.line l).active = true := by
  rw [h, held, Bool.true_or]

/-- An order's breaker and whether it is unopened are what a held line is read from. -/
theorem lineHeld_congr {s t : State} (active : t.agent.active = s.agent.active)
    (orders : t.trip.orders.map (fun o => (o.breaker, o.state)) = s.trip.orders.map fun o => (o.breaker, o.state)) (l : Nat) :
    t.lineHeld l = s.lineHeld l := by
  have lineOf : t.lineOf = s.lineOf := funext fun b => congrArg (fun t : Tables => (t.breaker b).lineOf) active
  have read : ∀ u : State, u.lineHeld l = (u.trip.orders.map fun o => (o.breaker, o.state)).any fun x =>
      (x.2 = .issued || x.2 = .failed) && u.lineOf x.1 = some l := fun u => by
    rw [List.any_map]
    rfl
  rw [read, read, orders, lineOf]

theorem Beside.lineHeld {s t : State} (h : Beside s t) (l : Nat) : t.lineHeld l = s.lineHeld l := by
  refine lineHeld_congr h.active ?_ l
  have read : ∀ u : State, u.trip.orders.map (fun o => (o.breaker, o.state)) = u.gists.map fun x => (x.1, x.2.1) := fun u => by
    rw [State.gists, List.map_map]
    rfl
  rw [read, read, h.gists]

/-- Lines, tables and held orders alike: what a line follows stands. -/
theorem lineFollows_congr {s t : State} {l : Nat} (lines : t.trip.lines = s.trip.lines) (held : t.lineHeld l = s.lineHeld l) :
    t.lineFollows l ↔ s.lineFollows l := by
  unfold State.lineFollows
  rw [State.line_congr lines, held]

theorem linesFollow_congr {s t : State} (lines : t.trip.lines = s.trip.lines) (held : ∀ l, t.lineHeld l = s.lineHeld l)
    (i : LinesFollowOrders s) : LinesFollowOrders t := fun l known => (lineFollows_congr lines (held l)).2 (i l known)

theorem Beside.linesFollow {s t : State} (h : Beside s t) : LinesFollowOrders s → LinesFollowOrders t :=
  linesFollow_congr h.lines h.lineHeld

/-- A change of the breaker and of the state of no order. -/
theorem updateOrder_follows {s : State} (b : Nat) (f : Order → Order) (i : LinesFollowOrders s)
    (same : ∀ o, ((f o).breaker, (f o).state) = (o.breaker, o.state) := by exact fun _ => rfl) :
    LinesFollowOrders (s.updateOrder b f) := by
  refine linesFollow_congr (s := s) rfl (lineHeld_congr rfl ?_) i
  rw [State.updateOrder_orders, List.map_map]
  refine List.map_congr_left fun o _ => ?_
  dsimp only [Function.comp_apply]
  split
  · exact same o
  · rfl

/-- A change of the order on a breaker is for the breaker's own line alone. -/
theorem lineHeld_updateOrder {s : State} {b l : Nat} {f : Order → Order} (same : ∀ o, (f o).breaker = o.breaker)
    (other : s.lineOf b ≠ some l) : (s.updateOrder b f).lineHeld l = s.lineHeld l := by
  unfold State.lineHeld
  rw [State.updateOrder_orders, List.any_map]
  refine List.any_congr rfl fun o => ?_
  dsimp only [Function.comp_apply]
  split
  next here =>
    have away : decide (s.lineOf o.breaker = some l) = false := decide_eq_false (here ▸ other)
    have read : (s.updateOrder b f).lineOf = s.lineOf := rfl
    rw [read, same, away, Bool.and_false, Bool.and_false]
  next => rfl

/-! ## A line driven, and a line reconsidered -/

/-- Every line but that of a breaker follows its orders, and the breaker's own is active while its pulse timer runs. -/
structure LinesFollowBut (s : State) (b : Nat) : Prop where
  others : ∀ l, l < Config.lineCount → s.lineOf b ≠ some l → s.lineFollows l
  own : ∀ l, l < Config.lineCount → s.lineOf b = some l → s.pulseActive l

theorem driveLine_lineHeld (s : State) (b l : Nat) : (s.driveLine b).lineHeld l = s.lineHeld l :=
  lineHeld_congr (driveLine_kept s b).active (by rw [driveLine_orders]) l

/-- An order that is held drives its line, which follows its orders then (R124). -/
theorem driveLine_follows {s : State} {b : Nat} (h : LinesFollowBut s b)
    (held : ∀ l, s.lineOf b = some l → s.lineHeld l = true) : LinesFollowOrders (s.driveLine b) := by
  intro l known
  obtain ⟨drives, stands⟩ := driveLine_driven s b l known
  rw [driveLine_lineHeld]
  by_cases own : s.lineOf b = some l
  · rw [held l own, Bool.true_or]
    cases active : (s.line l).active with
    | false => rw [drives own active]
    | true => rw [stands (.inr active), active]
  · rw [stands (.inl own)]
    exact h.others l known own

/-- An order that stops being held has its line reconsidered, which follows its orders then (R124). -/
theorem reconsiderLine_follows {s : State} {b : Nat} (h : LinesFollowBut s b)
    (held : ∀ l, l < Config.lineCount → s.lineOf b = some l → s.lineHeld l = true → (s.line l).active = true) :
    LinesFollowOrders (s.reconsiderLine b) := by
  intro l known
  have same : (s.reconsiderLine b).lineHeld l = s.lineHeld l :=
    lineHeld_congr (reconsiderLine_kept s b).active (by rw [(reconsiderLine_aside s b).orders]) l
  rw [same, line_reconsiderLine s b known]
  by_cases own : s.lineOf b = some l
  · split
    next free => rw [free.2.1]; rfl
    next stays =>
      have holds : (s.lineHeld l || (s.line l).pulse.isRunning) = true := by
        by_contra free
        rw [Bool.not_eq_true, Bool.or_eq_false_iff] at free
        exact stays ⟨own, free⟩
      rw [holds]
      rcases (Bool.or_eq_true _ _).mp holds with k | k
      · exact held l known own k
      · exact h.own l known own k
  · rw [if_neg fun k => own k.1]
    exact h.others l known own

/-! ## Orders that become held -/

/-- The order on a breaker has become ISSUED: every line but its own follows its orders still. -/
structure NewlyIssued (s : State) (b : Nat) : Prop where
  lines : LinesFollowBut s b
  issued : ∃ o ∈ s.trip.orders, o.breaker = b ∧ o.state = .issued

theorem LinesFollowBut.congr {s t : State} {b : Nat} (h : LinesFollowBut s b) (active : t.agent.active = s.agent.active)
    (lines : t.trip.lines = s.trip.lines) (held : ∀ l, s.lineOf b ≠ some l → t.lineHeld l = s.lineHeld l) : LinesFollowBut t b := by
  have lineOf : t.lineOf b = s.lineOf b := congrArg (fun t : Tables => (t.breaker b).lineOf) active
  refine ⟨fun l known other => ?_, fun l known own => ?_⟩
  · rw [lineOf] at other
    exact (lineFollows_congr lines (held l other)).2 (h.others l known other)
  · rw [lineOf] at own
    unfold State.pulseActive
    rw [State.line_congr lines]
    exact h.own l known own

theorem linesFollowBut_of {s : State} (h : LinesFollowOrders s) (b : Nat) : LinesFollowBut s b :=
  ⟨fun l known _ => h l known, fun l known _ => State.lineFollows.pulseActive (h l known)⟩

theorem NewlyIssued.beside {s t : State} {b : Nat} (h : NewlyIssued s b) (k : Beside s t) : NewlyIssued t b := by
  obtain ⟨o, mem, breaker, issued⟩ := h.issued
  have gist : o.gist ∈ t.gists := k.gists ▸ List.mem_map_of_mem mem
  obtain ⟨p, mem', same⟩ := List.mem_map.1 gist
  simp only [Order.gist, Prod.mk.injEq] at same
  obtain ⟨breaker', state, -⟩ := same
  exact ⟨h.lines.congr k.active k.lines fun l _ => k.lineHeld l, p, mem', breaker'.trans breaker, state.trans issued⟩

/-- A newly ISSUED order is sent and drives its line (R111, R117, R124). -/
theorem NewlyIssued.follows {s : State} {b : Nat} (h : NewlyIssued s b) : LinesFollowOrders ((s.attemptSend b).driveLine b) := by
  obtain ⟨lines, o, mem, rfl, issued⟩ := h.beside (attemptSend_beside s b)
  refine driveLine_follows lines fun l own => ?_
  rw [lineHeld_iff]
  exact ⟨o, mem, by rw [issued]; exact nofun, own⟩

/-! ## Askings -/

/-- What an operation is given to nest keeps the lines after their orders. -/
abbrev AskFollows (ask : Nat → SectionSet → Nat → State → State) : Prop :=
  ∀ b c d s, LinesFollowOrders s → LinesFollowOrders (ask b c d s)

theorem asks_follow {ask} (h : AskFollows ask) (c : SectionSet) (d : Nat) (bs : List Nat) (s : State) (i : LinesFollowOrders s) :
    LinesFollowOrders (bs.foldl (fun s b => ask b c d s) s) := by
  induction bs generalizing s with
  | nil => exact i
  | cons b bs ih => exact ih _ (h b c d s i)

theorem escalate_follows {ask} (h : AskFollows ask) (o : Order) {s : State} (i : LinesFollowOrders s) :
    LinesFollowOrders (s.escalate ask o) := by
  unfold State.escalate
  split
  · exact i
  · split
    · exact i
    · exact asks_follow h _ _ _ _ i

/-- An order that is FAILED is held as it was before, when it was ISSUED or has no line (R122, R124). -/
theorem markFailed_follows {s : State} {b : Nat} {o : Order} (ho : s.order b = some o)
    (still : o.state = .issued ∨ s.lineOf b = none) (r : FailReason) (i : LinesFollowOrders s) :
    LinesFollowOrders (s.markFailed o r) := by
  obtain rfl := order_breaker ho
  intro l known
  refine (lineFollows_congr (s := s) (t := s.markFailed o r) rfl ?_).2 (i l known)
  change (s.updateOrder o.breaker fun o => { o with state := .failed, failure := .stopped }).lineHeld l = _
  by_cases own : s.lineOf o.breaker = some l
  · have issued : o.state = .issued := still.resolve_right fun none => by
      rw [none] at own
      cases own
    have before : s.lineHeld l = true := (lineHeld_iff s l).2 ⟨o, order_mem ho, by rw [issued]; exact nofun, own⟩
    rw [before, lineHeld_iff]
    exact ⟨_, List.mem_map_of_mem (order_mem ho), by rw [if_pos rfl]; exact nofun, by rw [if_pos rfl]; exact own⟩
  · exact lineHeld_updateOrder (fun _ => rfl) own

theorem failWith_follows {ask} (h : AskFollows ask) {s : State} {b : Nat}
    (still : s.lineOf b = none ∨ ∀ o, s.order b = some o → o.state = .issued) (r : FailReason) (i : LinesFollowOrders s) :
    LinesFollowOrders (s.failWith ask b r) := by
  unfold State.failWith
  split
  next o ho => exact escalate_follows h o (markFailed_follows ho (still.symm.imp_left fun k => k o ho) r i)
  · exact i

/-- On a breaker that is cut and has no line an order fails without a line (R122). -/
theorem failIfCut_follows {ask} (h : AskFollows ask) (b : Nat) {s : State} (i : LinesFollowOrders s) :
    LinesFollowOrders (s.failIfCut ask b) := by
  unfold State.failIfCut
  split
  next cut =>
    simp only [State.cutWithoutLine, Bool.and_eq_true, decide_eq_true_eq] at cut
    exact failWith_follows h (.inl cut.2) .cut i
  · exact i

theorem createOrder_follows {ask} (h : AskFollows ask) (b : Nat) (p : Position) (c : SectionSet) (d : Nat) {s : State}
    (i : LinesFollowOrders s) : LinesFollowOrders (s.createOrder ask b p c d) := by
  have read : ∀ l, (s.setOrders (s.trip.orders ++ [s.newOrder b p c d])).lineHeld l =
      (s.lineHeld l || ((s.newOrder b p c d).unopened && decide (s.lineOf b = some l))) := fun l => by
    have appended : (s.setOrders (s.trip.orders ++ [s.newOrder b p c d])).lineHeld l =
        (s.trip.orders ++ [s.newOrder b p c d]).any fun o => o.unopened && s.lineOf o.breaker = some l := rfl
    rw [appended, List.any_append, List.any_cons, List.any_nil, Bool.or_false, (newOrder_fields s b p c d).1]
    rfl
  have after : Beside (s.setOrders (s.trip.orders ++ [s.newOrder b p c d]))
      (((s.setOrders (s.trip.orders ++ [s.newOrder b p c d])).disturb).record
        (orderRecord .orderIssued (s.newOrder b p c d) (value2 d (s.newOrder b p c d).state.code))) :=
    (disturb_beside _).trans (record_beside _ _)
  unfold State.createOrder
  dsimp only
  split
  next isOpen =>
    refine after.linesFollow (linesFollow_congr (s := s) rfl (fun l => ?_) i)
    rw [read, show (s.newOrder b p c d).unopened = false by rw [State.newOrder, if_pos isOpen]; rfl, Bool.false_and, Bool.or_false]
  next notOpen =>
    have issued : NewlyIssued (s.setOrders (s.trip.orders ++ [s.newOrder b p c d])) b := by
      refine ⟨(linesFollowBut_of i b).congr rfl rfl fun l other => ?_, s.newOrder b p c d,
        List.mem_append_right _ (List.mem_singleton.2 rfl), (newOrder_fields s b p c d).1, by rw [newOrder_issued s notOpen]⟩
      rw [read, decide_eq_false other, Bool.and_false, Bool.or_false]
    exact failIfCut_follows h b (issued.beside after).follows

theorem mergeOrder_follows {ask} (h : AskFollows ask) (o : Order) (c : SectionSet) (d : Nat) {s : State} (i : LinesFollowOrders s) :
    LinesFollowOrders (s.mergeOrder ask o c d) := by
  have merged : LinesFollowOrders (s.updateOrder o.breaker fun o => o.mergeWith c d) := updateOrder_follows _ _ i
  unfold State.mergeOrder
  dsimp only
  split
  · exact asks_follow h _ _ _ _ merged
  · exact merged

/-- However deep askings nest, the lines follow the orders (R120, R124). -/
theorem askOrder_follows (fuel : Nat) : AskFollows (askOrder fuel) := by
  induction fuel with
  | zero => exact fun _ _ _ _ i => i
  | succ n ih =>
    intro b c d s i
    unfold askOrder
    split
    · exact mergeOrder_follows ih _ c d i
    · exact createOrder_follows ih b _ c d i
    · exact i

theorem ask_follows : AskFollows State.ask := askOrder_follows _

theorem enterTripped_follows {s : State} (i : Nat) (c : Cause) (h : LinesFollowOrders s) : LinesFollowOrders (s.enterTripped i c) := by
  refine asks_follow ask_follows _ _ _ _ ?_
  have disturbed := disturb_beside (s.setSection i { s.sectionRec i with
    state := .tripped, persistence := .stopped, persistentMade := false, unconfirmableMade := false })
  exact disturbed.linesFollow h

theorem reissueOrder_follows {s : State} {b : Nat} {o : Order} (ho : s.order b = some o) (p : Position) (h : LinesFollowOrders s) :
    LinesFollowOrders (s.reissueOrder o p) := by
  rw [reissueOrder_eq ho]
  have reissued := order_reissued (p := p) ho
  have issued : NewlyIssued (s.reissued b o p) b :=
    ⟨(linesFollowBut_of h b).congr rfl rfl fun l other => lineHeld_updateOrder (fun _ => rfl) other, _,
      order_mem reissued, order_breaker reissued, rfl⟩
  exact failIfCut_follows ask_follows b issued.follows

/-! ## Orders that stop being held -/

/-- Orders leave a breaker's line, and those on the other lines stand: the line, reconsidered, follows its orders (R124). -/
theorem leave_follows {s t : State} {b : Nat} (h : LinesFollowOrders s) (active : t.agent.active = s.agent.active)
    (lines : t.trip.lines = s.trip.lines) (others : ∀ l, s.lineOf b ≠ some l → t.lineHeld l = s.lineHeld l)
    (own : ∀ l, t.lineHeld l = true → s.lineHeld l = true) : LinesFollowOrders (t.reconsiderLine b) := by
  refine reconsiderLine_follows ((linesFollowBut_of h b).congr active lines others) fun l known _ held => ?_
  rw [State.line_congr lines]
  exact State.lineFollows.active_of_held (h l known) (own l held)

theorem openOrder_follows {s : State} {b : Nat} {o : Order} (ho : s.order b = some o) (h : LinesFollowOrders s) :
    LinesFollowOrders (s.openOrder o) := by
  obtain rfl := order_breaker ho
  refine leave_follows h rfl rfl (fun l other => lineHeld_updateOrder (fun _ => rfl) other) fun l held => ?_
  by_contra free
  have none := (lineHeld_opened s o.breaker l).2 fun p mem _ => by
    by_contra holds
    rw [not_or, not_not] at holds
    exact free ((lineHeld_iff s l).2 ⟨p, mem, holds⟩)
  exact absurd (held.symm.trans none) nofun

theorem removeOrder_follows {s : State} (b : Nat) (h : LinesFollowOrders s) :
    LinesFollowOrders (((s.setOrders (s.trip.orders.filter fun o => o.breaker ≠ b)).withdrawTrip b).reconsiderLine b) := by
  have held : ∀ l, ((s.setOrders (s.trip.orders.filter fun o => o.breaker ≠ b)).withdrawTrip b).lineHeld l = true ↔
      ∃ o ∈ s.trip.orders, o.breaker ≠ b ∧ o.state ≠ .opened ∧ s.lineOf o.breaker = some l := fun l => by
    rw [(withdrawTrip_beside _ b).lineHeld, lineHeld_iff, State.setOrders_orders]
    simp only [List.mem_filter, decide_eq_true_eq, and_assoc]
    rfl
  refine leave_follows h rfl rfl (fun l other => ?_) fun l k => ?_
  · rw [Bool.eq_iff_iff, held, lineHeld_iff]
    refine exists_congr fun o => and_congr_right fun _ => and_iff_right_of_imp fun k here => other (here ▸ k.2)
  · obtain ⟨o, mem, -, k⟩ := (held l).1 k
    exact (lineHeld_iff s l).2 ⟨o, mem, k⟩

theorem removeCause_follows (i : Nat) (s : State) (b : Nat) (h : LinesFollowOrders s) : LinesFollowOrders (State.removeCause i s b) := by
  unfold State.removeCause
  split
  · exact h
  · dsimp only
    split
    · exact h
    · split
      · exact removeOrder_follows b h
      · exact updateOrder_follows b _ h

theorem removeSection_follows (i : Nat) {s : State} (h : LinesFollowOrders s) : LinesFollowOrders (s.removeSection i) := by
  unfold State.removeSection
  generalize s.trip.orders.map Order.breaker = bs
  induction bs generalizing s with
  | nil => exact h
  | cons b bs ih => exact ih (removeCause_follows i s b h)

theorem release_follows (i : Nat) {s : State} (h : LinesFollowOrders s) : LinesFollowOrders (s.release i).1 := by
  rcases release_cases s i with same | ⟨-, releases⟩
  · rwa [same]
  · rw [releases]
    exact removeSection_follows i h

theorem pulseExpiry_follows (l : Nat) {s : State} (h : LinesFollowOrders s) : LinesFollowOrders (s.pulseExpiry l) := by
  unfold State.pulseExpiry
  split
  next running =>
    intro m known
    have held : (s.setLine l ⟨(s.line l).active && s.lineHeld l, .stopped⟩).lineHeld m = s.lineHeld m := rfl
    rw [held, State.line_setLine]
    split
    next here =>
      obtain ⟨rfl, -⟩ := here
      rw [State.lineFollows.pulseActive (h l known) running]
      simp [Timer.isRunning]
    next => exact h m known
  · exact h

/-! ## The invariant -/

/-- Every deed leaves the lines after their orders. -/
theorem Deed.linesFollow {s t : State} (h : Deed s t) (i : LinesFollowOrders s) : LinesFollowOrders t := by
  cases h with
  | beside h => exact h.linesFollow i
  | @trips j known c => exact enterTripped_follows j c i
  | fails r ho hi =>
    refine failWith_follows ask_follows (.inr fun p hp => ?_) r i
    obtain rfl := Option.some.inj (ho.symm.trans hp)
    exact hi
  | opens ho => exact openOrder_follows ho i
  | reissues p ho => exact reissueOrder_follows ho p i
  | pulse l => exact pulseExpiry_follows l i
  | releases j => exact release_follows j i

theorem lineHeld_none {s : State} (h : s.trip.orders = []) (l : Nat) : s.lineHeld l = false := by
  unfold State.lineHeld
  rw [h]
  rfl

theorem tick_follows {s : State} (up : Up s) (h : LinesFollowOrders s) : LinesFollowOrders s.tick := by
  intro l known
  have line : s.tick.line l = { s.line l with pulse := (s.line l).pulse.tick } := by
    have lines : s.tick.trip.lines = Vector.ofFn fun i : Fin Config.lineCount => { s.line i with pulse := (s.line i).pulse.tick } := by
      unfold State.tick
      rw [if_neg (by simp [up])]
    unfold State.line
    rw [lines, Vector.getElem?_ofFn, dif_pos known]
    rfl
  have held : s.tick.lineHeld l = s.lineHeld l :=
    lineHeld_congr (congrArg Agent.active (tick_stays up).1) (by rw [tick_orders up, List.map_map]; rfl) l
  rw [line, held, Timer.isRunning_tick]
  exact h l known

theorem newTables_lines (s : State) : s.newTables.trip.lines = s.trip.lines := by
  simp only [State.newTables, State.record_trip, State.carryNodes, State.carryChannels, State.carryPoints, State.carryBreakers]

/-- A soft reset keeps the lines and what is held on them (R129). -/
theorem softBase_lines (s : State) : s.softBase.trip.lines = s.trip.lines ∧ ∀ l, s.softBase.lineHeld l = s.lineHeld l := by
  have active : s.softBase.agent.active = s.agent.active := by
    simp only [State.softBase, State.record_agent, State.softSections, State.freshRecords, State.refreshView, Agent.softReset]
  refine ⟨?_, lineHeld_congr active ?_⟩
  · simp only [State.softBase, State.record_trip, State.softSections, State.freshRecords, State.refreshView]
  · rw [softBase_orders, List.map_map]
    rfl

theorem linesFollow_keptByDeeds : KeptByDeeds LinesFollowOrders where
  deed := Deed.linesFollow
  newTables {s} none i := by
    have none' : s.newTables.trip.orders = [] := (newTables_orders s).trans none
    exact linesFollow_congr (s := s) (t := s.newTables) (newTables_lines s) (fun l => by rw [lineHeld_none none, lineHeld_none none']) i
  softBase {s} i := by
    refine linesFollow_congr (s := s) (t := s.softBase) (softBase_lines s).1 (softBase_lines s).2 i
  empty none lines l known := by
    rw [lineHeld_none none, line_inactive lines]
    rfl
  tick := tick_follows

/-- Settles O56: an order that becomes held drives its line, one that stops being held has it reconsidered, and an activation finds no
order. -/
theorem stepKeepsTripLines : Obligations.stepKeepsTripLines := by
  intro s t follows one quiet run
  obtain ⟨one', quiet'⟩ := quietOrders_keptByChanges.byStep.step run ⟨one, quiet⟩
  exact ⟨linesFollow_keptByDeeds.step quiet run follows, one', quiet'⟩

end Sys2Proof.Machine
end

section
/-! SUPPORT. An order asked for on a breaker (R108 to R112): how it begins where there is none, and what it is merged into where there is
one, with the askings of the backups that follow (R120, R122). -/

namespace Sys2Proof.Machine

open Sys2Proof.Safety

/-! ## Askings in list order (R120) -/

/-- Several breakers asked for in list order, each whole before the next. -/
abbrev State.askAll (s : State) (bs : List Nat) (c : SectionSet) (d : Nat) : State := bs.foldl (fun s b => s.ask b c d) s

theorem askAll_last (s : State) (bs : List Nat) (c : SectionSet) (d : Nat) : OrdersLast s (s.askAll bs c d) :=
  keeps_foldl OrdersLast.refl OrdersLast.trans (fun s b => ask_last b c d s) bs s

theorem askAll_onlyTrips (s : State) (bs : List Nat) (c : SectionSet) (d : Nat) : OnlyTrips s (s.askAll bs c d) :=
  keeps_foldl OnlyRecords.refl OnlyRecords.trans (fun s b => ask_onlyTrips b c d s) bs s

/-- After several breakers have been asked for, each of them that has a record carries the causes (R110, R120). -/
theorem askAll_demands {bs : List Nat} {b : Nat} (listed : b ∈ bs) (c : SectionSet) (d : Nat) :
    ∀ s : State, (s.position b).isSome = true → ∃ o ∈ (s.askAll bs c d).trip.orders, o.breaker = b ∧ o.causes &&& c = c := by
  induction bs with
  | nil => cases listed
  | cons x bs ih =>
    intro s known
    rcases List.mem_cons.1 listed with rfl | later
    · obtain ⟨o, mem, breaker, causes⟩ := ask_demands s b d c known
      have grows : OrdersGrow (s.ask b c d) (s.askAll (b :: bs) c d) :=
        keeps_foldl OrdersGrow.refl OrdersGrow.trans (fun s b => ask_grows b c d s) bs _
      obtain ⟨o', mem', breaker', causes', -⟩ := grows o mem
      exact ⟨o', mem', breaker'.trans breaker, by rw [← causes, ← BitVec.and_assoc, causes']⟩
    · exact ih later (s.ask x c d) (by rwa [State.position_congr (ask_kept x c d s).positions])

/-- An order that has failed stays FAILED while others are asked for, with its causes and no more than its depth. -/
theorem order_askAll {s : State} {b : Nat} {o : Order} (ho : s.order b = some o) (failed : o.hasFailed) (bs : List Nat) (c : SectionSet)
    (d : Nat) : ∃ o', (s.askAll bs c d).order b = some o' ∧ o'.state = .failed ∧ o'.failure = .stopped ∧
      o'.causes &&& o.causes = o.causes ∧ o'.depth ≤ o.depth := by
  obtain ⟨o', there, causes, depth, fails, -⟩ := askAll_last s bs c d b o ho
  exact ⟨o', there, (fails failed).1, (fails failed).2, causes, depth⟩

/-! ## An order merged (R112) -/

/-- Settles O24, by whether the merged order's escalation is repeated. -/
theorem mergedOrders : Obligations.mergedOrders := by
  intro s b depth causes o ho merged into backups
  obtain rfl := order_breaker ho
  have into_order : into.order o.breaker = some merged := by
    refine (order_updateOrder s o.breaker o.breaker (fun o => o.mergeWith causes depth) fun _ => rfl).trans ?_
    rw [if_pos rfl, ho]
    rfl
  have asked : s.ask o.breaker causes depth = s.mergeOrder State.ask o causes depth := by
    rw [ask_eq, ho]
  refine ⟨into_order, fun once => asked.trans (if_neg ?_), fun failed gains shallow => ?_⟩
  · rintro ⟨failed, gains, shallow⟩
    rcases once with other | ⟨same, level⟩ | deep
    · exact other failed
    · exact gains.elim (fun more => more same) fun less => absurd level (Nat.ne_of_lt less)
    · exact absurd shallow (Nat.not_lt.2 deep)
  · have again : s.ask o.breaker causes depth = into.askAll backups merged.causes (merged.depth + 1) :=
      asked.trans (if_pos ⟨failed, gains, shallow⟩)
    refine ⟨again, fun stopped => ?_, fun b' listed known => ?_⟩
    · obtain ⟨o', there, state, -, causes', depth'⟩ :=
        order_askAll into_order ⟨failed, stopped⟩ backups merged.causes (merged.depth + 1)
      exact ⟨o', again ▸ there, state, causes', depth'⟩
    · rw [again]
      exact askAll_demands listed _ _ into known

/-! ## An order created (R111) -/

/-- A new order has joined the tail of the active trip list, and its ORDER_ISSUED record is made (R111, R159). -/
def State.ordering (s : State) (b : Nat) (p : Position) (c : SectionSet) (d : Nat) : State :=
  (s.appendOrder b p c d).record (orderRecord .orderIssued (s.newOrder b p c d) (value2 d (s.newOrder b p c d).state.code))

section
variable {s : State} {b : Nat} {p : Position} {c : SectionSet} {d : Nat}

theorem ordering_kept : KeptByOrders s (s.ordering b p c d) := (appendOrder_kept s b p c d).trans (record_kept _ _)

/-- A new order has age 0 (R111). -/
theorem newOrder_ageMs (s : State) (b : Nat) (p : Position) (c : SectionSet) (d : Nat) : (s.newOrder b p c d).ageMs = 0 := by
  unfold State.newOrder
  split <;> simp [Order.ageMs]

theorem ordering_loop : (s.ordering b p c d).loop = s.loop := disturb_loop _

theorem ordering_lines : (s.ordering b p c d).trip.lines = s.trip.lines :=
  ((disturb_beside _).trans (record_beside _ _)).lines

theorem ordering_pool : (s.ordering b p c d).pool = s.pool.take s.deviceTime
    (orderRecord .orderIssued (s.newOrder b p c d) (value2 d (s.newOrder b p c d).state.code)) := by
  unfold State.ordering State.appendOrder State.disturb
  split <;> rfl

theorem order_ordering (unordered : s.order b = none) : (s.ordering b p c d).order b = some (s.newOrder b p c d) :=
  order_appendOrder unordered p c d

/-- An asking on a breaker without an order creates one, at a breaker that is OPEN as it is (R111). -/
theorem ask_opened (unordered : s.order b = none) (known : s.position b = some .atOpen) : s.ask b c d = s.ordering b .atOpen c d := by
  rw [ask_eq, unordered, known]
  rfl

/-- Elsewhere the order is sent, drives its line, and fails at once if it must (R111). -/
theorem ask_issued (unordered : s.order b = none) (known : s.position b = some p) (notOpen : p ≠ .atOpen) :
    s.ask b c d = (((s.ordering b p c d).attemptSend b).driveLine b).failIfCut State.ask b := by
  rw [ask_eq, unordered, known]
  exact if_neg notOpen

/-- An attempt to send, read in a state with the same Loop Port and tables. -/
theorem sendAttempted_congr {u : State} {depth age : Nat} {waiting copy : Bool} {l : LoopPort} (loop : u.loop = s.loop)
    (active : u.agent.active = s.agent.active) (h : SendAttempted u b depth age waiting l copy) :
    SendAttempted s b depth age waiting l copy := by
  unfold SendAttempted Busy at h ⊢
  rw [State.tables_congr active, isCut_congr (congrArg _ loop), loop] at h
  exact h

/-- A new order on a breaker that a frame or a line can reach (R111, R114, R124). -/
theorem ask_reached (unordered : s.order b = none) (known : s.position b = some p) (notOpen : p ≠ .atOpen)
    (reached : s.cutWithoutLine b = false) :
    s.ask b c d = ((s.ordering b p c d).attemptSend b).driveLine b := by
  have kept := (ordering_kept.trans (attemptSend_kept (s.ordering b p c d) b)).trans (driveLine_kept _ b)
  rw [ask_issued unordered known notOpen]
  unfold State.failIfCut
  rw [cutWithoutLine_congr (cutSet_of_rest kept.loopRest) kept.active b, reached]
  rfl

/-- A new order on a breaker that is cut and has no line: it is neither sent nor drives a line, and fails at once (R111, R122). -/
theorem ask_cut (unordered : s.order b = none) (known : s.position b = some p) (notOpen : p ≠ .atOpen) (cut : s.cutWithoutLine b = true) :
    s.ask b c d = (s.ordering b p c d).failWith State.ask b .cut := by
  have cut' : (s.ordering b p c d).cutWithoutLine b = true :=
    (cutWithoutLine_congr (congrArg _ ordering_loop) ordering_kept.active b).trans cut
  obtain ⟨isCut, noLine⟩ : (s.ordering b p c d).isCut b = true ∧ (s.ordering b p c d).lineOf b = none := by
    simpa [State.cutWithoutLine] using cut'
  have unsent : (s.ordering b p c d).attemptSend b = s.ordering b p c d :=
    attemptSend_not (order_ordering unordered) (.inr (by simp [isCut]))
  have undriven : (s.ordering b p c d).driveLine b = s.ordering b p c d := by
    unfold State.driveLine
    rw [noLine]
  rw [ask_issued unordered known notOpen, unsent, undriven]
  exact if_pos cut'

theorem disturb_setOrders (s : State) (os : List Order) : (s.setOrders os).disturb = s.disturb.setOrders os := by
  unfold State.disturb
  rw [show (s.setOrders os).agent = s.agent from rfl]
  by_cases v : s.agent.state = .validating
  · rw [if_pos v, if_pos v]
    rfl
  · rw [if_neg v, if_neg v]

/-- A change of the new order is a new order that is so from the start. -/
theorem updateOrder_ordering (unordered : s.order b = none) (f : Order → Order) : (s.ordering b p c d).updateOrder b f =
    ((s.setOrders (s.trip.orders ++ [f (s.newOrder b p c d)])).disturb).record
      (orderRecord .orderIssued (s.newOrder b p c d) (value2 d (s.newOrder b p c d).state.code)) := by
  have others : s.trip.orders.map (fun o => if o.breaker = b then f o else o) = s.trip.orders :=
    (List.map_congr_left fun o mem => if_neg (by simpa using List.find?_eq_none.1 unordered o mem)).trans (List.map_id' _)
  have orders : (s.ordering b p c d).trip.orders.map (fun o => if o.breaker = b then f o else o) =
      s.trip.orders ++ [f (s.newOrder b p c d)] := by
    rw [show (s.ordering b p c d).trip.orders = s.trip.orders ++ [s.newOrder b p c d] from appendOrder_orders s b p c d,
      List.map_append, others, List.map_singleton, if_pos (newOrder_fields s b p c d).1]
  rw [State.updateOrder, orders, State.ordering, State.appendOrder, disturb_setOrders, disturb_setOrders]
  rfl

end

/-- Settles O23: the order as it is created, and then what it does by the breaker's position, line and cut. -/
theorem newOrders : Obligations.newOrders := by
  intro s b depth causes p unordered known
  refine ⟨fun isOpen => ?_, fun notOpen reached => ?_, fun notOpen cut => ?_⟩
  · subst isOpen
    exact ask_opened unordered known
  · obtain ⟨copy, order, attempted, breakers, pool, lines⟩ :=
      attemptSend_attempted (s.ordering b p causes depth) b _ (order_ordering unordered) (by rw [newOrder_issued s notOpen]; rfl)
    have sent := (ordering_kept (s := s) (b := b) (p := p) (c := causes) (d := depth)).trans (attemptSend_kept _ b)
    rw [newOrder_ageMs, newOrder_issued s notOpen] at attempted
    rw [newOrder_issued s notOpen] at order
    rw [ask_reached unordered known notOpen reached]
    refine ⟨copy, (State.order_congr (driveLine_orders _ b) b).trans order, ?_, ?_, ?_, ?_⟩
    · rw [driveLine_loop]
      exact sendAttempted_congr (u := s.ordering b p causes depth) ordering_loop ordering_kept.active attempted
    · rw [driveLine_orders, breakers]
      exact appendOrder_ordered s b p causes depth
    · exact lineDriven_congr sent.active (lines.trans ordering_lines) (driveLine_driven _ b)
    · rw [driveLine_pool, pool, ordering_pool, newOrder_issued s notOpen]
      rfl
  · intro body backups failed t
    have marked : (s.ordering b p causes depth).markFailed (s.newOrder b p causes depth) .cut = failed := by
      unfold State.markFailed
      rw [(newOrder_fields s b p causes depth).1, updateOrder_ordering unordered, newOrder_issued s notOpen]
      rfl
    have fails := failWith_eq (order_ordering (p := p) (c := causes) (d := depth) unordered) .cut
    rw [← ask_cut unordered known notOpen cut, marked, newOrder_issued s notOpen, State.tables_congr ordering_kept.active] at fails
    refine ⟨fun deep => fails.trans (if_pos deep),
      fun shallow alone => fails.trans ((if_neg (Nat.not_le.2 shallow)).trans (if_pos alone)), fun shallow backed => ?_⟩
    have escalates : t = failed.askAll backups causes (depth + 1) :=
      fails.trans ((if_neg (Nat.not_le.2 shallow)).trans (if_neg backed))
    have order := order_markFailed (order_ordering (p := p) (c := causes) (d := depth) unordered) .cut
    rw [marked, newOrder_issued s notOpen] at order
    have kept : KeptByOrders s failed := marked ▸ ordering_kept.trans (markFailed_kept _ _ _)
    refine ⟨escalates, escalates ▸ order_askAll order ⟨rfl, rfl⟩ backups causes (depth + 1), ?_, fun b' listed record => ?_⟩
    · obtain ⟨made, pool, -⟩ := (askAll_onlyTrips failed backups causes (depth + 1)).pool
      rw [kept.deviceTime] at pool
      exact ⟨made, escalates ▸ pool⟩
    · rw [escalates]
      exact askAll_demands listed _ _ failed (by rwa [State.position_congr kept.positions])

end Sys2Proof.Machine
end

section
/-! SUPPORT. What an event does to the lens test and to the exchange with the gateway, said once: nothing, or one of a few dealings. -/

namespace Sys2Proof.Machine

open Sys2Proof.Safety
open Relation (ReflTransGen)

/-! ## Changes elsewhere -/

/-- The channel is TESTING (R62). -/
def State.testing (s : State) (c : Nat) : Prop := ∃ r, s.channel c = some r ∧ r.cond = .testing

/-- A change that no test is begun, measured or ended by: the frames that the engine holds, its peak and its count aside (R133). -/
structure SameTest (s t : State) : Prop where
  engine : t.lens.state = s.lens.state
  under : t.lens.channel = s.lens.channel
  startWait : t.lens.startWait.isRunning = s.lens.startWait.isRunning
  testing : ∀ c, t.testing c ↔ s.testing c

/-- A change elsewhere than in the lens test and the exchange with the gateway, but for held responses that leave (R168). -/
structure Elsewhere (s t : State) : Prop extends SameTest s t where
  state : t.agent.state = s.agent.state
  activation : t.agent.activation = s.agent.activation
  held : t.agent.held.length ≤ s.agent.held.length

theorem Elsewhere.refl (s : State) : Elsewhere s s := ⟨⟨rfl, rfl, rfl, fun _ => .rfl⟩, rfl, rfl, le_rfl⟩

theorem Elsewhere.trans {s t u : State} (h : Elsewhere s t) (k : Elsewhere t u) : Elsewhere s u :=
  ⟨⟨k.engine.trans h.engine, k.under.trans h.under, k.startWait.trans h.startWait, fun c => (k.testing c).trans (h.testing c)⟩,
    k.state.trans h.state, k.activation.trans h.activation, k.held.trans h.held⟩

theorem State.testing_congr {s t : State} (h : t.channels = s.channels) (c : Nat) : t.testing c ↔ s.testing c := by
  rw [State.testing, State.channel_congr h, State.testing]

theorem Elsewhere.of_same {s t : State} (lens : t.lens = s.lens) (channels : t.channels = s.channels)
    (state : t.agent.state = s.agent.state) (activation : t.agent.activation = s.agent.activation)
    (held : t.agent.held = s.agent.held) : Elsewhere s t :=
  ⟨⟨congrArg _ lens, congrArg _ lens, by rw [lens], State.testing_congr channels⟩, state, activation, by rw [held]⟩

/-- The events of the Loop Port change no more of the engine than the frames that it holds. -/
theorem KeptByLoop.sameTest {s t : State} (h : KeptByLoop s t) : SameTest s t := by
  obtain ⟨state, channel, -, -, startWait, -⟩ := LensEngine.mk.inj h.lens
  exact ⟨state, channel, by rw [startWait], State.testing_congr h.channels⟩

theorem KeptByLoop.elsewhere {s t : State} (h : KeptByLoop s t) (held : t.agent.held.length ≤ s.agent.held.length) : Elsewhere s t :=
  ⟨h.sameTest, h.state, h.activation, held⟩

theorem KeptByCurrent.elsewhere {s t : State} (h : KeptByCurrent s t) : Elsewhere s t :=
  .of_same h.lens h.channels h.state h.activation h.held

theorem KeptBySections.elsewhere {s t : State} (h : KeptBySections s t) : Elsewhere s t := h.toCurrent.elsewhere

theorem KeptByOrders.elsewhere {s t : State} (h : KeptByOrders s t) : Elsewhere s t := h.toKeptBySections.elsewhere

theorem Recut.elsewhere {s t : State} (h : Recut s t) : Elsewhere s t := .of_same h.lens h.channels h.state h.activation h.held

/-- The Light Qualifier leaves the engine and the exchange alone. -/
theorem KeptByLight.elsewhere {s t : State} (h : KeptByLight s t) (testing : ∀ c, t.testing c ↔ s.testing c) : Elsewhere s t :=
  ⟨⟨congrArg _ h.lens, congrArg _ h.lens, by rw [h.lens], testing⟩, h.state, h.activation, by rw [h.held]⟩

theorem elsewhere_foldl {f : State → α → State} (hf : ∀ s a, Elsewhere s (f s a)) (l : List α) (s : State) :
    Elsewhere s (l.foldl f s) := keeps_foldl Elsewhere.refl Elsewhere.trans hf l s

theorem setLoop_elsewhere (s : State) (l : LoopPort) : Elsewhere s (s.setLoop l) := .of_same rfl rfl rfl rfl rfl
theorem setNode_elsewhere (s : State) (n : Nat) (r : NodeRec) : Elsewhere s (s.setNode n r) := .of_same rfl rfl rfl rfl rfl
theorem setPosition_elsewhere (s : State) (b : Nat) (p : Position) : Elsewhere s (s.setPosition b p) :=
  .of_same rfl rfl rfl rfl rfl

/-! ## Loop Port -/

theorem queueWaitingClaim_elsewhere (s : State) : Elsewhere s s.queueWaitingClaim :=
  (queueWaitingClaim_kept s).elsewhere (by rw [queueWaitingClaim_agent])

theorem offerHeldTests_agent (s : State) (n : Nat) : (s.offerHeldTests n).agent = s.agent := by
  induction n generalizing s with
  | zero => rfl
  | succ n ih =>
    unfold State.offerHeldTests
    split
    · rfl
    · split
      · exact (ih _).trans (startIfIdle_agent _)
      · rfl

theorem queueHeldTests_elsewhere (s : State) : Elsewhere s s.queueHeldTests := by
  unfold State.queueHeldTests
  split
  · exact .refl s
  · exact (offerHeldTests_kept s _).elsewhere (by rw [offerHeldTests_agent])

/-- Every response that finds room leaves the held list (R168). -/
theorem offerHeldResponses_held (s : State) (n : Nat) : (s.offerHeldResponses n).agent.held.length ≤ s.agent.held.length := by
  induction n generalizing s with
  | zero => exact le_rfl
  | succ n ih =>
    unfold State.offerHeldResponses
    split
    · exact le_rfl
    next r rest held =>
      split
      · refine (ih _).trans ?_
        rw [(pushRoutine_kept _ r).held, held]
        exact Nat.le_succ _
      · exact le_rfl

theorem offerHeldResponses_elsewhere (s : State) (n : Nat) : Elsewhere s (s.offerHeldResponses n) :=
  (offerHeldResponses_kept s n).elsewhere (offerHeldResponses_held s n)

theorem tellControlRoom_elsewhere (s : State) : Elsewhere s s.tellControlRoom :=
  (queueWaitingClaim_elsewhere s).trans (queueHeldTests_elsewhere _)

theorem settleRoom_elsewhere (s : State) : Elsewhere s s.settleRoom :=
  (tellControlRoom_elsewhere s).trans (offerHeldResponses_elsewhere _ _)

theorem enterClaiming_elsewhere (s : State) : Elsewhere s s.enterClaiming :=
  (setLoop_elsewhere s _).trans (queueWaitingClaim_elsewhere _)

theorem enterOpen_elsewhere (s : State) (c : OpenCause) : Elsewhere s (s.enterOpen c) :=
  (((((setLoop_elsewhere s _).trans (tellControlRoom_elsewhere _)).trans (recomputeCut_recut _).elsewhere).trans
    (record_kept _ _).elsewhere).trans (queueOrSkip_kept _ _).elsewhere).trans (setLoop_elsewhere _ _)

theorem supervisionReturns_elsewhere (s : State) : Elsewhere s s.supervisionReturns := by
  unfold State.supervisionReturns
  split
  · exact setLoop_elsewhere s _
  · exact .refl s

theorem beaconReturns_elsewhere (s : State) : Elsewhere s s.beaconReturns := by
  unfold State.beaconReturns
  split
  · exact (enterClaiming_elsewhere s).trans (settleRoom_elsewhere _)
  · exact .refl s

theorem claimReturns_elsewhere (s : State) (seq : Byte) (p : List Byte) : Elsewhere s (s.claimReturns seq p) := by
  unfold State.claimReturns
  split
  · exact .refl s
  · split
    · exact ((setLoop_elsewhere s _).trans (record_kept _ _).elsewhere).trans (setLoop_elsewhere _ _)
    · exact .refl s

theorem claimExpiry_elsewhere (s : State) : Elsewhere s s.claimExpiry := by
  unfold State.claimExpiry
  split
  · exact enterOpen_elsewhere s _
  · exact .refl s

theorem supervisionExpiry_elsewhere (s : State) : Elsewhere s s.supervisionExpiry := by
  unfold State.supervisionExpiry
  split
  · exact enterOpen_elsewhere s _
  · exact .refl s

theorem supervisionSendExpiry_elsewhere (s : State) : Elsewhere s s.supervisionSendExpiry := by
  unfold State.supervisionSendExpiry
  split
  · exact (setLoop_elsewhere s _).trans (queueOrSkip_kept _ _).elsewhere
  · exact .refl s

theorem beaconExpiry_elsewhere (s : State) : Elsewhere s s.beaconExpiry := by
  unfold State.beaconExpiry
  split
  · exact (setLoop_elsewhere s _).trans (queueOrSkip_kept _ _).elsewhere
  · exact .refl s

theorem loopActivation_elsewhere (s : State) : Elsewhere s s.loopActivation := by
  unfold State.loopActivation
  split
  · dsimp only
    split
    · exact setLoop_elsewhere s _
    · exact (setLoop_elsewhere s _).trans (record_kept _ _).elsewhere
  · exact (recomputeCut_recut s).elsewhere
  · exact .refl s

theorem claimSent_elsewhere (s : State) (x : Sending) : Elsewhere s (s.claimSent x) := by
  unfold State.claimSent
  split
  · exact setLoop_elsewhere s _
  · exact .refl s

/-! ## Light Qualifier -/

/-- A change of a channel's record, by what it makes of TESTING. -/
theorem testing_changeChannel {s : State} {c : Nat} {old new : ChannelRec} (own : s.channel c = some old) (d : Nat) :
    (s.changeChannel c old new).testing d ↔ if d = c then new.cond = .testing else s.testing d := by
  rw [State.testing, channel_changeChannel_of_some own]
  split
  · simp
  · exact .rfl

/-- A change of a channel's record that leaves the channel TESTING exactly if it was. -/
theorem changeChannel_elsewhere {s : State} {c : Nat} {old new : ChannelRec} (own : s.channel c = some old)
    (same : new.cond = .testing ↔ old.cond = .testing) : Elsewhere s (s.changeChannel c old new) := by
  refine (changeChannel_kept s c old new).elsewhere fun d => (testing_changeChannel own d).trans ?_
  split
  next here => simp [State.testing, here, own, same]
  next => exact .rfl

/-- A channel's record is replaced by one with its condition. -/
theorem setChannel_elsewhere {s : State} {c : Nat} {old new : ChannelRec} (own : s.channel c = some old) (cond : new.cond = old.cond) :
    Elsewhere s (s.setChannel c new) := by
  refine (setChannel_kept s c new).elsewhere fun d => ?_
  rw [State.testing, channel_setChannel_of_some own]
  split
  next here => simp [State.testing, here, own, cond]
  next => exact .rfl

theorem processSample_elsewhere (s : State) (c : Nat) (x : Sample) : Elsewhere s (s.processSample c x) := by
  unfold State.processSample
  split
  · exact .refl s
  next r own =>
    have recorded := (flickerRecord_kept s c (r.process (s.channelEntry c) x).2.1).trans
      (flickerRecord_kept _ c (r.process (s.channelEntry c) x).2.2)
    obtain ⟨-, -, -, -, -, cond, -⟩ := process_fields (s.channelEntry c) r x
    exact recorded.elsewhere.trans
      (changeChannel_elsewhere ((State.channel_congr recorded.channels c).trans own) (by rw [cond]))

theorem processDelivered_elsewhere (s : State) (c level gap : Nat) : Elsewhere s (s.processDelivered c level gap) := by
  cases own : s.channel c with
  | none =>
    unfold State.processDelivered
    rw [own]
    exact .refl s
  | some r =>
    rw [processDelivered_eq_foldl own]
    exact elsewhere_foldl (fun s x => processSample_elsewhere s c x) _ s

theorem standing_ne_testing (x : Standing) : x.cond ≠ .testing := by cases x <;> exact nofun

theorem channelLive_elsewhere (s : State) (c : Nat) : Elsewhere s (s.channelLive c) := by
  unfold State.channelLive
  split
  next r own =>
    split
    next noData => exact changeChannel_elsewhere own (iff_of_false (standing_ne_testing r.standing) (by rw [noData]; exact nofun))
    next => exact .refl s
  next => exact .refl s

theorem handOver_elsewhere (s : State) (c gain : Nat) (st : Standing) : Elsewhere s (s.handOver c gain st) := by
  unfold State.handOver
  split
  next r own => exact setChannel_elsewhere own rfl
  next => exact .refl s

/-- A channel that leaves TESTING (R64): it is the one that does. -/
theorem testing_leaveTesting (s : State) (c d : Nat) (a : Option Nat) :
    (s.leaveTesting c a).testing d ↔ s.testing d ∧ d ≠ c := by
  have own : ∀ {r : ChannelRec} {new : ChannelRec}, s.channel c = some r → new.cond ≠ .testing →
      ((s.changeChannel c r new).testing d ↔ s.testing d ∧ d ≠ c) := fun own other => by
    rw [testing_changeChannel own]
    split
    next here => simp [here, other]
    next elsewhere => simp [elsewhere]
  unfold State.leaveTesting
  split
  next r known =>
    have returned := own known (new := { r with cond := r.standing.cond }) (standing_ne_testing r.standing)
    split
    next noData =>
      refine ⟨fun t => ⟨t, ?_⟩, And.left⟩
      rintro rfl
      obtain ⟨r', same, testing⟩ := t
      cases known.symm.trans same
      rw [noData] at testing
      cases testing
    next =>
      split
      · dsimp only
        split
        · exact ((processSample_elsewhere _ c _).testing d).trans returned
        · exact returned
      · exact own known nofun
  next unknown =>
    refine ⟨fun t => ⟨t, ?_⟩, And.left⟩
    rintro rfl
    obtain ⟨r', same, -⟩ := t
    cases unknown.symm.trans same

end Sys2Proof.Machine
end

section
/-! SUPPORT. The dealings of the lens test and of the exchange with the gateway, and what one step is: a run of them, from the first state
or, at an activation, from the swap. -/

namespace Sys2Proof.Machine

open Sys2Proof.Safety
open Relation (ReflTransGen)

/-! ## Dealings -/

/-- The part starts to validate (R158). -/
def State.validates (s : State) (p : PendingActivation) : State :=
  { s with agent := { s.agent with state := .validating, activation := some p, disturbed := false } }

/-- What the events do to the lens test and to the exchange with the gateway, each with what its operation has checked. -/
inductive Dealing : State → State → Prop
  | elsewhere {s t : State} (h : Elsewhere s t) : Dealing s t
  | begins {s : State} {c : Nat} (accepted : s.lensCheck c = .ok) : Dealing s (s.acceptTest c)
  | measures {s : State} (count peak : Nat) (busy : s.lens.state ≠ .idle) :
      Dealing s (s.setLens { s.lens with state := .measuring, startWait := .stopped, count := count, peak := peak })
  | ends {s : State} {c : Nat} (r : LensResult) (a : Option Nat) (under : s.lens.channel = some c) : Dealing s (s.endTest c r a)
  | stale (n : Nat) (s : State) : Dealing s (State.tellStale n s)
  | answers {s : State} (r : Response) (none : s.agent.held = []) : Dealing s (s.respond r)
  | validates {s : State} (p : PendingActivation) (none : s.agent.held = []) : Dealing s (s.validates p)
  | concludes {s : State} (r : Response) (validating : s.agent.state = .validating) : Dealing s (s.endValidation.respond r)
  | resets {s t : State} {set : Tables} (fresh : Fresh set t) (idle : t.agent.state = .idle) (none : t.agent.activation = none)
      (unheld : t.agent.held = []) : Dealing s t

/-- A run of dealings. -/
abbrev Dealings : State → State → Prop := ReflTransGen Dealing

theorem Elsewhere.dealings {s t : State} (h : Elsewhere s t) : Dealings s t := .single (.elsewhere h)

/-! ## Lens Check Engine -/

theorem completeWindow_dealings {s : State} {c : Nat} (under : s.lens.channel = some c) : Dealings s (s.completeWindow c) := by
  unfold State.completeWindow
  split
  · exact .refl
  · exact (handOver_elsewhere s c _ _).dealings.tail (.ends _ _ ((handOver_elsewhere s c _ _).under.trans under))

theorem countFlagged_dealings {s : State} {c : Nat} (under : s.lens.channel = some c) (busy : s.lens.state ≠ .idle) (n p : Nat) :
    Dealings s (s.countFlagged c n p) := by
  have measured : Dealings s (s.setLens { s.lens with state := .measuring, startWait := .stopped, count := n, peak := p }) :=
    .single (.measures n p busy)
  unfold State.countFlagged
  dsimp only
  split
  · exact measured.trans (completeWindow_dealings under)
  · exact measured

theorem lensSample_dealings (s : State) (c level : Nat) (flag : Bool) : Dealings s (s.lensSample c level flag) := by
  unfold State.lensSample
  split
  · exact .refl
  next own =>
    obtain ⟨under, busy⟩ := not_or.1 own
    rw [not_not] at under
    split
    · exact .single (.ends _ _ under)
    · split
      · exact countFlagged_dealings under busy _ _
      · exact .single (.ends _ _ under)
      · exact countFlagged_dealings under busy _ _
      · exact .refl

theorem deliverLight_dealings (s : State) (c level : Nat) (flag : Bool) (gap : Nat) :
    Dealings s (s.deliverLight c level flag gap) := by
  unfold State.deliverLight
  split
  · exact .refl
  next r own =>
    have raw : Elsewhere s (s.setChannel c { r with raw := some level }) := setChannel_elsewhere own rfl
    dsimp only
    split
    · exact (raw.trans (processDelivered_elsewhere _ c _ _)).dealings
    · exact (raw.trans (processDelivered_elsewhere _ c _ _)).dealings
    · exact raw.dealings.trans (lensSample_dealings _ c _ _)
    · exact raw.dealings

theorem startWaitExpiry_dealings (s : State) : Dealings s s.startWaitExpiry := by
  unfold State.startWaitExpiry
  split
  next under => exact .single (.ends _ _ under)
  next => exact .refl

theorem testWindowComplete_dealings (s : State) : Dealings s s.testWindowComplete := by
  unfold State.testWindowComplete
  split
  next measuring under =>
    split
    · exact countFlagged_dealings under (by rw [measuring]; exact nofun) _ _
    · exact .refl
  next => exact .refl

/-! ## Node Admission -/

theorem deliverPosition_elsewhere (s : State) (b : Nat) (p : Position) : Elsewhere s (s.deliverPosition b p) := by
  unfold State.deliverPosition
  split
  · exact .refl s
  · split
    · exact .refl s
    · exact (setPosition_elsewhere s b p).trans ((record_kept _ _).trans (orderSeesPosition_kept _ b p)).elsewhere

theorem deliver_dealings (s : State) (n gap : Nat) (c : Contents) : Dealings s (s.deliver n gap c) := by
  cases c with
  | light xs =>
    exact deliverAll_keeps (fun _ => .refl) ReflTransGen.trans (fun s c x => deliverLight_dealings s c _ _ _) 0 xs s
  | current xs =>
    exact (deliverAll_keeps Elsewhere.refl Elsewhere.trans (fun s p x => (deliverPoint_kept s p _ x).elsewhere) 0 xs s).dealings
  | positions xs =>
    exact (deliverAll_keeps Elsewhere.refl Elsewhere.trans (fun s b x => deliverPosition_elsewhere s b x) 0 xs s).dealings

theorem tellLive_elsewhere (n : Nat) (s : State) : Elsewhere s (State.tellLive n s) :=
  (elsewhere_foldl channelLive_elsewhere _ s).trans (elsewhere_foldl (fun s p => (pointLive_kept s p).elsewhere) _ _)

/-- The neighbours are told between two changes elsewhere (R40). -/
theorem tellNeighbours_dealings {tell : State → State} (h : ∀ s, Dealings s (tell s)) (s : State) :
    Dealings s (s.tellNeighbours tell) := by
  obtain ⟨u, before, after⟩ := tellNeighbours_recut tell s
  exact (before.elsewhere.dealings.trans (h u)).trans after.elsewhere.dealings

theorem toldOf_elsewhere (s : State) (n : Nat) (r : NodeRec) (e : RecordBody) : Elsewhere s (s.toldOf n r e) :=
  (setNode_elsewhere s n r).trans (record_kept _ e).elsewhere

theorem becomeLive_dealings (s : State) (n : Nat) (r : NodeRec) (seq : Byte) : Dealings s (s.becomeLive n r seq) := by
  rw [becomeLive_eq]
  exact ((toldOf_elsewhere s n _ _).dealings.trans
    (tellNeighbours_dealings (fun s => (tellLive_elsewhere n s).dealings) _)).trans (setNode_elsewhere _ n _).dealings

theorem stayLive_elsewhere (s : State) (n : Nat) (seq : Byte) (d : Nat) : Elsewhere s (s.stayLive n seq d) := by
  unfold State.stayLive
  dsimp only
  split
  · exact (setNode_elsewhere s n _).trans (record_kept _ _).elsewhere
  · exact setNode_elsewhere s n _

theorem nodeFrame_dealings (s : State) (k : NodeKind) (source seq : Byte) (p : List Byte) :
    Dealings s (s.nodeFrame k source seq p) := by
  unfold State.nodeFrame
  split
  · exact .refl
  · split
    · exact .refl
    · split
      · exact .refl
      · unfold State.acceptFrame
        split
        · dsimp only
          split
          · exact .refl
          · exact (stayLive_elsewhere s _ seq _).dealings.trans (deliver_dealings _ _ _ _)
        · exact (becomeLive_dealings s _ _ seq).trans (deliver_dealings _ _ _ _)

theorem inFrame_dealings (s : State) (k : NodeKind) (source seq : Byte) (p : List Byte) (brings : Nat → Nat → Contents → Bool) :
    Dealings s (s.inFrame k source seq p brings) := by
  rcases inFrame_cases s k source seq p brings with h | h <;> rw [h]
  exact nodeFrame_dealings s k source seq p

theorem staleExpiry_dealings (s : State) (n : Nat) : Dealings s (s.staleExpiry n) := by
  unfold State.staleExpiry
  split
  · split
    · exact (toldOf_elsewhere s n _ _).dealings.trans (tellNeighbours_dealings (fun u => .single (.stale n u)) _)
    · exact .refl
  · exact .refl

/-! ## Management Agent, Setting Store and Supply Monitor -/

/-- What serving a request does: a change elsewhere, an accepted TEST_LENS, or the beginning of a validation (R135, R158). -/
inductive Serves (s : State) : State → Prop
  | elsewhere {t : State} (h : Elsewhere s t) : Serves s t
  | tests {c : Nat} (accepted : s.lensCheck c = .ok) : Serves s (s.acceptTest c)
  | validates (p : PendingActivation) : Serves s (s.validates p)

theorem serveReadEvents_elsewhere (ps : List Byte) (s : State) : Elsewhere s (serveReadEvents ps s).1 := by
  unfold serveReadEvents
  repeat' split
  all_goals exact .of_same rfl rfl rfl rfl rfl

theorem serveWriteShadow_elsewhere (ps : List Byte) (s : State) : Elsewhere s (serveWriteShadow ps s).1 := by
  unfold serveWriteShadow
  repeat' split
  all_goals exact .of_same rfl rfl rfl rfl rfl

theorem serveDiscardShadow_elsewhere (ps : List Byte) (s : State) : Elsewhere s (serveDiscardShadow ps s).1 := by
  unfold serveDiscardShadow
  repeat' split
  all_goals exact .of_same rfl rfl rfl rfl rfl

theorem serveSoftReset_elsewhere (ps : List Byte) (s : State) : Elsewhere s (serveSoftReset ps s).1 := by
  unfold serveSoftReset
  split <;> exact .of_same rfl rfl rfl rfl rfl

theorem serveActivate_serves (source tag : Byte) (ps : List Byte) (s : State) : Serves s (serveActivate source tag ps s).1 := by
  unfold serveActivate
  repeat' split
  case isFalse.isFalse.isFalse.isFalse => exact .validates ⟨tag, source⟩
  all_goals exact .elsewhere (.refl s)

theorem serveRelease_elsewhere (ps : List Byte) (s : State) : Elsewhere s (serveRelease ps s).1 := by
  unfold serveRelease
  split
  · exact (release_kept s _).elsewhere
  · exact .refl s

theorem serveSetMaintenance_elsewhere (ps : List Byte) (s : State) : Elsewhere s (serveSetMaintenance ps s).1 := by
  unfold serveSetMaintenance
  split
  · split
    · exact (setMaintenance_kept s _ _).elsewhere
    · exact .refl s
  · exact .refl s

theorem serveSetBlock_elsewhere (ps : List Byte) (s : State) : Elsewhere s (serveSetBlock ps s).1 := by
  unfold serveSetBlock
  split
  · split
    · exact (setBlockOn_kept s _).elsewhere
    · exact (setBlockOff_kept s _).elsewhere
    · exact .refl s
  · exact .refl s

theorem serveTestLens_serves (ps : List Byte) (s : State) : Serves s (serveTestLens ps s).1 := by
  unfold serveTestLens
  split
  · unfold State.testLens
    split
    next accepted => exact .tests accepted
    next => exact .elsewhere (.refl s)
  · exact .elsewhere (.refl s)

theorem serveReclaim_elsewhere (ps : List Byte) (s : State) : Elsewhere s (serveReclaim ps s).1 := by
  unfold serveReclaim
  split
  · exact (enterClaiming_elsewhere s).trans (settleRoom_elsewhere _)
  · exact .refl s

theorem serveCode_serves (code source tag : Byte) (ps : List Byte) (s : State) : Serves s (serveCode code source tag ps s).1 := by
  have reading := serveReading_same code source tag ps s
  unfold serveCode at reading ⊢
  split
  case h_2 => exact .elsewhere (serveReadEvents_elsewhere ps s)
  case h_6 => exact .elsewhere (serveWriteShadow_elsewhere ps s)
  case h_7 => exact .elsewhere (serveDiscardShadow_elsewhere ps s)
  case h_8 => exact serveActivate_serves source tag ps s
  case h_9 => exact .elsewhere (serveRelease_elsewhere ps s)
  case h_10 => exact .elsewhere (serveSetMaintenance_elsewhere ps s)
  case h_11 => exact .elsewhere (serveSetBlock_elsewhere ps s)
  case h_12 => exact serveTestLens_serves ps s
  case h_13 => exact .elsewhere (serveReclaim_elsewhere ps s)
  case h_14 => exact .elsewhere (serveSoftReset_elsewhere ps s)
  all_goals
    rename_i e
    rw [e] at reading
    rw [reading (by simp)]
    exact .elsewhere (.refl s)

/-- A request is served while no response is held, and no serving holds one (R167). -/
theorem Serves.dealing {s t : State} (h : Serves s t) (none : s.agent.held = []) : Dealing s t ∧ t.agent.held = [] := by
  cases h with
  | elsewhere h => exact ⟨.elsewhere h, List.length_eq_zero_iff.1 (Nat.le_zero.1 (by simpa [none] using h.held))⟩
  | tests accepted => exact ⟨.begins accepted, (acceptTest_kept s _).held.trans none⟩
  | validates p => exact ⟨.validates p none, none⟩

theorem takeRequest_dealings (source tag code : Byte) (ps : List Byte) (s : State) :
    Dealings s (s.takeRequest source tag code (serveCode code source tag ps)) := by
  unfold State.takeRequest
  split
  · exact .refl
  next taken =>
    have none : s.agent.held = [] := by
      by_contra held
      exact taken (.inr (.inl held))
    obtain ⟨served, unheld⟩ := (serveCode_serves code source tag ps s).dealing none
    split <;> rename_i e <;> rw [e] at served unheld
    · exact (ReflTransGen.single served).tail (.answers _ unheld)
    · exact .single served

/-- A frame of the loop is a run of dealings (R3, R4). -/
theorem receive_dealings (s : State) (bytes : List Byte) : Dealings s (s.receive bytes) := by
  unfold State.receive State.goodFrame
  split
  · split
    · split
      · exact (supervisionReturns_elsewhere s).dealings
      · exact (beaconReturns_elsewhere s).dealings
      · exact (claimReturns_elsewhere s _ _).dealings
      · exact .refl
    · split
      · exact .refl
      · split
        · exact nodeFrame_dealings s _ _ _ _
        · exact nodeFrame_dealings s _ _ _ _
        · exact nodeFrame_dealings s _ _ _ _
        · unfold State.requestFrame
          split
          · exact takeRequest_dealings _ _ _ _ s
          · exact .refl
        · exact .refl
  · exact .refl

theorem storeComplete_elsewhere (s : State) (a : Bool) : Elsewhere s (s.storeComplete a) := by
  unfold State.storeComplete
  split <;> exact .of_same rfl rfl rfl rfl rfl

theorem warningFall_elsewhere (s : State) : Elsewhere s s.warningFall := by
  unfold State.warningFall
  split <;> exact .of_same rfl rfl rfl rfl rfl

theorem warningRise_elsewhere (s : State) : Elsewhere s s.warningRise := by
  unfold State.warningRise
  split <;> exact .of_same rfl rfl rfl rfl rfl

theorem beginHardReset_elsewhere (s : State) (d : Bool) : Elsewhere s (s.beginHardReset d) := by
  unfold State.beginHardReset
  split <;> exact .of_same rfl rfl rfl rfl rfl

theorem loseRetention_elsewhere (s : State) : Elsewhere s s.loseRetention :=
  (beginHardReset_elsewhere s true).trans (.of_same rfl rfl rfl rfl rfl)

theorem performSoftReset_dealings (s : State) : Dealings s s.performSoftReset := by
  obtain ⟨-, -, -, -, agent, -⟩ := softBase_values s
  have fresh : Dealing s s.softBase := .resets (softBase_fresh s) (by rw [agent]; rfl) (by rw [agent]; rfl) (by rw [agent]; rfl)
  rw [performSoftReset_eq]
  exact (ReflTransGen.single fresh).tail (.elsewhere (enterClaiming_elsewhere _))

theorem endHardReset_dealings (s : State) (mv : Nat) : Dealings s (s.endHardReset mv) := by
  unfold State.endHardReset
  split
  next h _ =>
    split
    · obtain ⟨-, -, agent, -⟩ := hardBase_values s h mv
      have fresh : Dealing s (s.hardBase h mv) :=
        .resets (hardBase_fresh s h mv) (by rw [agent]; rfl) (by rw [agent]; rfl) (by rw [agent]; rfl)
      rw [finishHardReset_eq]
      exact (ReflTransGen.single fresh).tail (.elsewhere (enterClaiming_elsewhere _))
    · exact .refl
  next => exact .refl

theorem sendingCompletes_dealings (s : State) : Dealings s s.sendingCompletes := by
  unfold State.sendingCompletes
  split
  · exact .refl
  · split
    · exact performSoftReset_dealings s
    · exact (((claimSent_elsewhere s _).trans (startNext_kept _).elsewhere).trans (settleRoom_elsewhere _)).dealings

/-! ## One step -/

/-- A run of dealings from the state as it is, or from the swap of an undisturbed validation (R160, R161). -/
def DealtWith (s t : State) : Prop :=
  Dealings s t ∨ s.agent.state = .validating ∧ s.agent.disturbed = false ∧ Dealings s.swap t

theorem recomputeSections_elsewhere (s : State) : Elsewhere s s.recomputeSections := by
  obtain ⟨-, channels, -, -, -, -, -, agent, -⟩ := refreshView_same s
  have viewed : Elsewhere s s.refreshView := .of_same (by simp only [State.refreshView]) channels (by rw [agent]) (by rw [agent]) (by rw [agent])
  exact viewed.trans (recomputeSections_kept s).elsewhere

/-- After the carry-over a swap is elsewhere (R161). -/
theorem swap_elsewhere (s : State) : Elsewhere s.newTables s.swap := by
  have written : ∀ u : State, Elsewhere u u.beginStoreWrite := fun u => .of_same rfl rfl rfl rfl rfl
  rw [swap_eq]
  exact ((loopActivation_elsewhere _).trans (recomputeSections_elsewhere _)).trans (written _)

theorem validationCompletes_dealt (s : State) : DealtWith s s.validationCompletes := by
  unfold State.validationCompletes
  split
  next validating _ =>
    split
    · exact .inl (.single (.concludes _ validating))
    next calm =>
      split
      · exact .inl (.single (.concludes _ validating))
      · have still : s.swap.agent.state = .validating := (swap_elsewhere s).state.trans validating
        exact .inr ⟨validating, by simpa using calm, .single (.concludes _ still)⟩
  next => exact .inl .refl

theorem tick_elsewhere (s : State) : Elsewhere s s.tick := by
  have running : ∀ x : Timer, x.tick.isRunning = x.isRunning := fun x => by rcases x with _ | _ | _ <;> rfl
  unfold State.tick
  split
  · exact .refl s
  · exact ⟨⟨rfl, rfl, running _, fun _ => .rfl⟩, rfl, rfl, le_rfl⟩

/-- Every command is a run of dealings. -/
theorem exec_dealt {s t : State} {c : Instr} (run : exec c s = .next t) : DealtWith s t := by
  have outside : ∀ {f : State → State}, DealtWith s (f s) → DealtWith s (s.outsideReset f) := fun h => by
    unfold State.outsideReset
    split
    · exact .inl .refl
    · exact h
  have deals : ∀ {f : State → State}, Dealings s (f s) → DealtWith s (s.outsideReset f) := fun h => outside (.inl h)
  have beside : ∀ {f : State → State}, Elsewhere s (f s) → DealtWith s (s.outsideReset f) := fun h => deals h.dealings
  have requests : ∀ {source tag code : Byte} {ps : List Byte},
      DealtWith s (s.outsideReset fun s => s.takeRequest source tag code (serveCode code source tag ps)) :=
    deals (takeRequest_dealings _ _ _ _ s)
  cases c <;> cases run
  case frameArrival bytes => exact deals (receive_dealings s bytes)
  case supervision => exact beside (supervisionReturns_elsewhere s)
  case beacon => exact beside (beaconReturns_elsewhere s)
  case claim seq payload => exact beside (claimReturns_elsewhere s seq payload)
  case claimTimerExpiry => exact beside (claimExpiry_elsewhere s)
  case supervisionSendTimerExpiry => exact beside (supervisionSendExpiry_elsewhere s)
  case supervisionTimerExpiry => exact beside (supervisionExpiry_elsewhere s)
  case beaconTimerExpiry => exact beside (beaconExpiry_elsewhere s)
  case sendingComplete => exact deals (sendingCompletes_dealings s)
  case claimQueuedAtRoom => exact beside (queueWaitingClaim_elsewhere s)
  case heldTestFrameQueued => exact beside (queueHeldTests_elsewhere s)
  case heldResponseQueued => exact beside (offerHeldResponses_elsewhere s _)
  case lightSample source seq payload => exact deals (nodeFrame_dealings s .light source seq payload)
  case currentSample source seq payload => exact deals (nodeFrame_dealings s .current source seq payload)
  case position source seq payload => exact deals (nodeFrame_dealings s .breaker source seq payload)
  case staleTimerExpiry n => exact deals (staleExpiry_dealings s n)
  case flickerWindowClose e => exact deals (inFrame_dealings s _ _ _ _ _)
  case stretchExpiry e => exact deals (inFrame_dealings s _ _ _ _ _)
  case persistenceTimerExpiry j => exact beside (persistenceExpiry_kept s j).elsewhere
  case resendTimerExpiry b => exact beside (resendExpiry_kept s b).elsewhere
  case failureTimerExpiry b => exact beside (failureExpiry_kept s b).elsewhere
  case minimumPulseTimerExpiry l => exact beside (pulseExpiry_kept s l).elsewhere
  case startWaitTimerExpiry => exact deals (startWaitExpiry_dealings s)
  case testWindowComplete => exact deals (testWindowComplete_dealings s)
  case validationComplete => exact outside (validationCompletes_dealt s)
  case storeWriteComplete agrees => exact beside (storeComplete_elsewhere s agrees)
  case softResetTakesEffect =>
    refine deals ?_
    split
    · exact performSoftReset_dealings s
    · exact .refl
  case supplyWarningFall => exact beside (warningFall_elsewhere s)
  case supplyWarningRise => exact beside (warningRise_elsewhere s)
  case supplyDipReset => exact .inl (beginHardReset_elsewhere s true).dealings
  case resetnLow => exact .inl (beginHardReset_elsewhere s false).dealings
  case hardResetEnd mv => exact .inl (endHardReset_dealings s mv)
  case supplyBelowRetention => exact .inl (loseRetention_elsewhere s).dealings
  case setBlockOn source tag sect => exact requests (code := 0x22) (ps := [sect, 1])
  case setBlockOff source tag sect => exact requests (code := 0x22) (ps := [sect, 0])
  all_goals exact requests

/-- What an invariant of the lens test or of the exchange needs to be kept by every step, under a premise `P` that no command in the
queue matters to: the dealings keep it, and so does the swap of an undisturbed validation. -/
structure KeptByDealings (P I : State → Prop) : Prop where
  queue : ∀ {s : State} (rest : List Instr), P s → P { s with pending := rest }
  dealing : ∀ {s t : State}, Dealing s t → I s → I t
  swap : ∀ {s : State}, P s → s.agent.state = .validating → s.agent.disturbed = false → I s → I s.swap

section
variable {P I : State → Prop} (k : KeptByDealings P I)
include k

theorem KeptByDealings.run {s t : State} (h : Dealings s t) (i : I s) : I t := by
  induction h with
  | refl => exact i
  | tail _ deals ih => exact k.dealing deals ih

theorem KeptByDealings.exec {s t : State} {c : Instr} (p : P s) (run : Machine.exec c s = .next t) (i : I s) : I t := by
  rcases exec_dealt run with deals | ⟨validating, calm, deals⟩
  · exact k.run deals i
  · exact k.run deals (k.swap p validating calm i)

/-- Every step keeps the invariant. -/
theorem KeptByDealings.step {s t : State} (p : P s) (run : Machine.step s = .next t) (i : I s) : I t := by
  unfold Machine.step at run
  split at run
  next rest _ =>
    exact k.exec (k.queue rest p) run (k.dealing (s := s) (.elsewhere (.of_same rfl rfl rfl rfl rfl)) i)
  · split at run
    · exact k.exec p run i
    · cases run
      exact k.dealing (.elsewhere (tick_elsewhere s)) i

end

end Sys2Proof.Machine
end

section
/-! SUPPORT. One channel under test (R133, R135, R139, R142, R145) and a bounded exchange with the gateway (R148, R166) under each dealing. -/

namespace Sys2Proof.Machine

open Sys2Proof.Safety

/-! ## The acceptance of a test (R134, R135) -/

/-- What an accepted channel has passed: the engine is IDLE, and the channel has a record with data (R134). -/
theorem lensCheck_accepts {s : State} {c : Nat} (accepted : s.lensCheck c = .ok) :
    s.lens.state = .idle ∧ ∃ r, s.channel c = some r ∧ r.cond ≠ .noData := by
  unfold State.lensCheck at accepted
  split_ifs at accepted with _ _ busy
  split at accepted
  next => cases accepted
  next r own =>
    split_ifs at accepted with noData
    exact ⟨not_not.1 busy, r, own, noData⟩

/-- A TEST frame that is offered touches no channel record (R136). -/
theorem offerTest_channels (s : State) (f : TestFrame) : (s.offerTest f).channels = s.channels := (offerTest_apart s f).channels

/-- An accepted test, up to its TEST(on) frame (R135, R159). -/
def State.testBegun (s : State) (c : Nat) : State :=
  ((s.setLens { s.lens with channel := some c, peak := 0, count := 0 }).disturb).startTesting c

theorem acceptTest_eq (s : State) (c : Nat) : s.acceptTest c =
    ((s.testBegun c).offerTest ((s.testBegun c).testFrame c true)).setLens
      { ((s.testBegun c).offerTest ((s.testBegun c).testFrame c true)).lens with
        state := .starting, startWait := .running Config.startWaitTime } := rfl

theorem testBegun_lens (s : State) (c : Nat) : (s.testBegun c).lens = { s.lens with channel := some c, peak := 0, count := 0 } :=
  (startTesting_kept _ c).lens.trans (disturb_kept _).lens

/-- An offered TEST frame joins the CONTROL queue or the held frames, and the engine's record is else as it was (R136). -/
theorem offerTest_lens (s : State) (f : TestFrame) : ∃ held, (s.offerTest f).lens = { s.lens with held := held } := by
  unfold State.offerTest
  split
  · exact ⟨s.lens.held, (pushControl_kept s _).lens⟩
  · exact ⟨_, rfl⟩

/-- The engine's record after an accepted test (R135). -/
theorem acceptTest_lens (s : State) (c : Nat) :
    ∃ held, (s.acceptTest c).lens = ⟨.starting, some c, 0, 0, .running 200, held⟩ := by
  obtain ⟨held, lens⟩ := offerTest_lens (s.testBegun c) ((s.testBegun c).testFrame c true)
  rw [testBegun_lens] at lens
  exact ⟨held, by rw [acceptTest_eq, State.setLens_lens, lens]⟩

/-- An accepted test makes its channel TESTING, and changes no other channel (R135). -/
theorem channel_acceptTest {s : State} {c : Nat} {r : ChannelRec} (own : s.channel c = some r) (j : Nat) :
    (s.acceptTest c).channel j = if j = c then some { r with cond := .testing } else s.channel j := by
  have offered : (s.acceptTest c).channels = (s.testBegun c).channels := offerTest_channels _ _
  have before : ∀ i, ((s.setLens { s.lens with channel := some c, peak := 0, count := 0 }).disturb).channel i = s.channel i :=
    State.channel_congr (disturb_kept _).channels
  rw [State.channel_congr offered, State.testBegun, State.startTesting, (before c).trans own]
  exact (channel_changeChannel_of_some ((before c).trans own) _ _ j).trans (by rw [before])

/-! ## One test (R133, R135, R139, R142, R145) -/

theorem SameTest.oneTest {s t : State} (h : SameTest s t) (i : OneTest s) : OneTest t := by
  obtain ⟨startWait, idle, under⟩ := i
  refine ⟨?_, ?_, fun c => ?_⟩
  · rw [h.startWait, h.engine]
    exact startWait
  · rw [h.under, h.engine]
    exact idle
  · rw [h.under]
    exact (under c).trans (h.testing c).symm

section
variable {s : State} (i : OneTest s)
include i

theorem idle_of_free (free : s.lens.channel = none) : s.lens.state = .idle := by
  obtain ⟨-, idle, -⟩ := i
  exact idle.1 free

theorem under_of_testing {c : Nat} (testing : s.testing c) : s.lens.channel = some c := by
  obtain ⟨-, -, under⟩ := i
  exact (under c).2 testing

theorem untested_of_idle (idle : s.lens.state = .idle) (c : Nat) : ¬ s.testing c := by
  have ⟨_, free, _⟩ := i
  intro testing
  have named := under_of_testing i testing
  rw [free.2 idle] at named
  cases named

end

/-- An engine at rest and no channel TESTING. -/
theorem oneTest_of_idle {s : State} (state : s.lens.state = .idle) (channel : s.lens.channel = none)
    (stopped : s.lens.startWait = .stopped) (none : ∀ c, ¬ s.testing c) : OneTest s := by
  refine ⟨?_, ?_, fun c => ?_⟩
  · rw [stopped, state]
    exact iff_of_false nofun nofun
  · exact iff_of_true channel state
  · rw [channel]
    exact iff_of_false nofun (none c)

/-- The ending of a test returns its channel, and leaves the others as they are (R142). -/
theorem testing_endTest (s : State) (c d : Nat) (r : LensResult) (a : Option Nat) :
    (s.endTest c r a).testing d ↔ s.testing d ∧ d ≠ c :=
  (State.testing_congr (putOutLamp_same _ c).1 d).trans (testing_leaveTesting _ c d a)

/-- The test under way is the only one, so that nothing is left TESTING when it ends (R142). -/
theorem endTest_oneTest {s : State} {c : Nat} (only : ∀ d, s.testing d → d = c) (r : LensResult) (a : Option Nat) :
    OneTest (s.endTest c r a) :=
  oneTest_of_idle rfl rfl rfl fun d testing =>
    have ⟨still, other⟩ := (testing_endTest s c d r a).1 testing
    other (only d still)

/-- The channels of a node that has become STALE are TESTING no longer (R60). -/
theorem testing_loseData (n : Nat) (s : State) (d : Nat) :
    (s.loseData n).testing d ↔ s.testing d ∧ d ∉ s.channelsOfNode n := by
  rw [State.testing, channel_loseData]
  split
  next named => simp [named, ChannelRec.noData]
  next unnamed => simp [unnamed, State.testing]

/-- A node that becomes STALE takes the test of its channel with it, and no other (R143). -/
theorem tellStale_oneTest (n : Nat) {s : State} (i : OneTest s) : OneTest (State.tellStale n s) := by
  have lens := (loseData_reports n s).lens
  have tables : (s.loseData n).tables = s.tables := (loseData_reports n s).active
  have only : ∀ {c}, s.lens.channel = some c → ∀ d, (s.loseData n).testing d → d = c := fun under d testing => by
    obtain ⟨before, -⟩ := (testing_loseData n s d).1 testing
    exact (Option.some.inj (under.symm.trans (under_of_testing i before))).symm
  have spared : (∀ d, s.testing d → d ∉ s.channelsOfNode n) → OneTest (s.loseData n) := fun spares =>
    SameTest.oneTest ⟨congrArg _ lens, congrArg _ lens, by rw [lens],
      fun d => (testing_loseData n s d).trans (and_iff_left_of_imp (spares d))⟩ i
  rw [tellStale_eq, State.lensNodeStale, lens]
  split
  next idle => exact spared fun d testing => absurd testing (untested_of_idle i idle d)
  next free _ => exact spared fun d testing => absurd testing (untested_of_idle i (idle_of_free i free) d)
  next c under _ =>
    split
    · exact endTest_oneTest (only under) _ _
    next other =>
      refine spared fun d testing named => other ?_
      cases under.symm.trans (under_of_testing i testing)
      rw [State.channelEntry, tables]
      exact channelsOfNode_node named

/-- A test begins while the engine is IDLE, so that its channel is the only one TESTING (R134, R135). -/
theorem acceptTest_oneTest {s : State} {c : Nat} (accepted : s.lensCheck c = .ok) (i : OneTest s) : OneTest (s.acceptTest c) := by
  obtain ⟨idle, r, own, -⟩ := lensCheck_accepts accepted
  obtain ⟨held, lens⟩ := acceptTest_lens s c
  refine ⟨?_, ?_, fun d => ?_⟩
  · rw [lens]
    exact iff_of_true rfl rfl
  · rw [lens]
    exact iff_of_false nofun nofun
  · rw [lens, channel_acceptTest own]
    split
    next same => exact iff_of_true (congrArg some same.symm) ⟨_, rfl, rfl⟩
    next other => exact iff_of_false (fun named => other (Option.some.inj named).symm) (untested_of_idle i idle d)

/-- The first flagged sample stops the start wait timer as the engine leaves STARTING (R137). -/
theorem measures_oneTest {s : State} (busy : s.lens.state ≠ .idle) (count peak : Nat) (i : OneTest s) :
    OneTest (s.setLens { s.lens with state := .measuring, startWait := .stopped, count := count, peak := peak }) :=
  have ⟨_, _, under⟩ := i
  ⟨iff_of_false nofun nofun, iff_of_false (fun free => busy (idle_of_free i free)) nofun, under⟩

theorem Dealing.oneTest {s t : State} (h : Dealing s t) (i : OneTest s) : OneTest t := by
  cases h with
  | elsewhere h => exact h.toSameTest.oneTest i
  | begins accepted => exact acceptTest_oneTest accepted i
  | measures count peak busy => exact measures_oneTest busy count peak i
  | ends r a under => exact endTest_oneTest (fun d testing => Option.some.inj ((under_of_testing i testing).symm.trans under)) r a
  | stale n => exact tellStale_oneTest n i
  | answers r none => exact (respond_kept s r).sameTest.oneTest i
  | validates p none => exact i
  | concludes r validating => exact (respond_kept s.endValidation r).sameTest.oneTest i
  | resets fresh idle none unheld =>
    have lens := fresh.lens
    refine oneTest_of_idle (by rw [lens]; rfl) (by rw [lens]; rfl) (by rw [lens]; rfl) ?_
    rintro c ⟨r, own, testing⟩
    obtain ⟨-, rfl⟩ := fresh.channel own
    cases testing

/-- The swap of an undisturbed validation finds no test, and its fresh channels are not TESTING (R65, R158). -/
theorem swap_oneTest {s : State} (quiet : s.quiet = true) (i : OneTest s) : OneTest s.swap := by
  obtain ⟨-, -, idle⟩ := (quiet_iff s).1 quiet
  have none : ∀ c, ¬ s.newTables.testing c := by
    rintro c ⟨r, own, testing⟩
    rw [newTables_channel s (channel_lt own)] at own
    split_ifs at own with kept used
    · exact untested_of_idle i idle c ⟨r, own, testing⟩
    all_goals
      cases own
      cases testing
  have lens := newTables_lens s
  refine (swap_elsewhere s).toSameTest.oneTest (SameTest.oneTest (s := s) ⟨congrArg _ lens, congrArg _ lens, by rw [lens], fun c => ?_⟩ i)
  exact iff_of_false (none c) (untested_of_idle i idle c)

theorem oneTest_keptByDealings : KeptByDealings QuietWhileUndisturbed OneTest where
  queue _ p := p
  dealing h i := h.oneTest i
  swap quiet validating calm i := swap_oneTest (quiet validating calm) i

/-- Every step keeps an undisturbed validation quiet (R158, R159). -/
theorem quiet_keptByChanges : KeptByChanges QuietWhileUndisturbed where
  change h i := h.quiet i
  queue _ i := i
  opens _ _ i := i
  livening _ _ i := i
  staling _ i := i
  newTables {s} _ _ i := quiet_congr (s := s) (t := s.newTables) (by rw [ordered_congr (newTables_orders s)])
    (fun j => congrArg SectionRec.state (State.sectionRec_congr (congrArg SectionEvaluator.records (newTables_sections s)) j))
    (congrArg LensEngine.state (newTables_lens s)) (newTables_agent s).1 (newTables_agent s).2 i
  softBase {s} _ := quiet_of_idle ((congrArg Agent.state (State.setLoop_agent _ _)).trans (softBase_idle s))
  hardBase {s} h mv _ := quiet_of_idle ((congrArg Agent.state (State.setLoop_agent _ _)).trans (hardBase_idle s h mv))
  begins {s} _ _ i := quiet_congr (s := s) (List.nil_sublist _) (fun _ => rfl) rfl rfl rfl i
  noted _ _ i := i
  tick {s} up i := by
    have agent := (tick_stays up).1
    exact quiet_congr (tick_ordered up ▸ .refl _) (tick_sectionState up) (tick_stays up).2 (congrArg _ agent) (congrArg _ agent) i

/-! ## The exchange with the gateway (R148, R166) -/

/-- A change that holds no further response, and begins and ends no validation. -/
theorem exchange_congr {s t : State} (state : t.agent.state = s.agent.state) (activation : t.agent.activation = s.agent.activation)
    (held : t.agent.held.length ≤ s.agent.held.length) (i : ExchangeBounded s) : ExchangeBounded t := by
  obtain ⟨bound, pending⟩ := i
  refine ⟨?_, ?_⟩
  · rw [state]
    exact (Nat.add_le_add_right held _).trans bound
  · rw [activation, state]
    exact pending

theorem Kept.exchange {s t : State} (h : Kept s t) : ExchangeBounded s → ExchangeBounded t :=
  exchange_congr h.state h.activation (by rw [h.held])

/-- An answer joins the held responses at most (R168). -/
theorem respond_held (s : State) (r : Response) : (s.respond r).agent.held.length ≤ s.agent.held.length + 1 := by
  unfold State.respond
  split
  · rw [(pushRoutine_kept s r).held]
    exact Nat.le_succ _
  · exact (List.length_append).le

theorem Dealing.exchange {s t : State} (h : Dealing s t) (i : ExchangeBounded s) : ExchangeBounded t := by
  obtain ⟨bound, pending⟩ := i
  cases h with
  | elsewhere h => exact exchange_congr h.state h.activation h.held ⟨bound, pending⟩
  | begins accepted => exact (acceptTest_kept s _).exchange ⟨bound, pending⟩
  | measures count peak busy => exact ⟨bound, pending⟩
  | ends r a under => exact (endTest_kept s _ r a).exchange ⟨bound, pending⟩
  | stale n => exact (tellStale_kept n s).exchange ⟨bound, pending⟩
  | answers r none =>
    have kept := respond_kept s r
    have one := respond_held s r
    rw [none, List.length_nil] at one
    refine ⟨?_, by rw [kept.activation, kept.state]; exact pending⟩
    split <;> omega
  | validates p none => exact ⟨by simp [State.validates, none], iff_of_true rfl rfl⟩
  | concludes r validating =>
    have kept := respond_kept s.endValidation r
    rw [if_pos validating] at bound
    have idle : (s.endValidation.respond r).agent.state = .idle := kept.state
    refine ⟨?_, by rw [kept.activation, idle]; exact iff_of_false nofun nofun⟩
    rw [idle]
    exact (respond_held s.endValidation r).trans bound
  | resets fresh idle none unheld =>
    refine ⟨?_, by rw [none, idle]; exact iff_of_false nofun nofun⟩
    rw [unheld, idle]
    decide

theorem swap_exchange {s : State} (i : ExchangeBounded s) : ExchangeBounded s.swap := by
  have after := swap_elsewhere s
  obtain ⟨agent, -⟩ := newTables_values s
  rw [State.swapping] at agent
  exact exchange_congr (s := s) (by rw [after.state, agent]) (by rw [after.activation, agent]) (by simpa only [agent] using after.held) i

theorem exchange_keptByDealings : KeptByDealings (fun _ => True) ExchangeBounded where
  queue _ _ := trivial
  dealing h i := h.exchange i
  swap _ _ _ i := swap_exchange i

/-- Settles O60: a test begins while the engine is IDLE and ends with its channel returned; a request is served while no response is held,
and the answer that a validation owes is the second at most. -/
theorem stepKeepsTestAndExchange : Obligations.stepKeepsTestAndExchange := by
  unfold Obligations.stepKeepsTestAndExchange
  exact ⟨fun s t test quiet run => ⟨oneTest_keptByDealings.step quiet run test, quiet_keptByChanges.byStep.step run quiet⟩,
    fun s t bounded run => exchange_keptByDealings.step trivial run bounded⟩

end Sys2Proof.Machine
end

section
/-! SUPPORT. TEST_LENS (R134 to R136): the checks in their order, and what an accepted test sets, sends and answers. -/

namespace Sys2Proof.Machine

open Sys2Proof.Safety

/-! ## The checks (R134) -/

theorem otherContributes_iff (s : State) (i c : Nat) :
    s.otherContributes i c = true ↔ ∃ c', c' < 96 ∧ c' ≠ c ∧ s.contributes i c' = true := by
  simp [State.otherContributes]

section
variable {s : State} {c : Nat}

/-- The BAD_INDEX check passes a channel whose entry is in use. -/
theorem entry_inUse (known : c < 96) (used : s.tables.channelUsed c = true) :
    ¬ (Config.channelCount ≤ c ∨ (!markerSet (s.channelEntry c).inUse) = true) :=
  not_or.2 ⟨Nat.not_le.2 known, by rw [Bool.not_eq_true', Bool.not_eq_false]; exact used⟩

theorem lensCheck_unconfigured (mode : s.agent.mode = .unconfigured) : s.lensCheck c = .unconfigured := if_pos mode

variable (mode : s.agent.mode = .protecting)
include mode

theorem lensCheck_badIndex (unknown : 96 ≤ c ∨ s.tables.channelUsed c = false) : s.lensCheck c = .badIndex := by
  have refused : Config.channelCount ≤ c ∨ (!markerSet (s.channelEntry c).inUse) = true :=
    unknown.imp_right fun unused => by rw [Bool.not_eq_true']; exact unused
  rw [State.lensCheck, if_neg (by rw [mode]; exact nofun), if_pos refused]

variable (known : c < 96) (used : s.tables.channelUsed c = true)
include known used

theorem lensCheck_busy (busy : s.lens.state ≠ .idle) : s.lensCheck c = .busy := by
  rw [State.lensCheck, if_neg (by rw [mode]; exact nofun), if_neg (entry_inUse known used), if_pos busy]

variable {r : ChannelRec} (own : s.channel c = some r) (idle : s.lens.state = .idle)
include own idle

theorem lensCheck_noData (noData : r.cond = .noData) : s.lensCheck c = .refusedState := by
  rw [State.lensCheck, if_neg (by rw [mode]; exact nofun), if_neg (entry_inUse known used), if_neg (not_not.2 idle), own]
  exact if_pos noData

variable (data : r.cond ≠ .noData)
include data

theorem lensCheck_noSection (unnamed : (s.tables.channel c).sectOf = none) : s.lensCheck c = .ok := by
  have free : s.sectionOfChannel c = none := by rw [State.sectionOfChannel, State.channelEntry, unnamed]; rfl
  rw [State.lensCheck, if_neg (by rw [mode]; exact nofun), if_neg (entry_inUse known used), if_neg (not_not.2 idle), own]
  dsimp only
  rw [if_neg data, free]

/-- The checks of a channel with data, in its section. -/
theorem lensCheck_section {i : Nat} (named : (s.tables.channel c).sectOf = some i) : s.lensCheck c =
    if (s.sectionRec i).state = .light ∨ (s.sectionRec i).state = .tripped then .refusedState
    else if (s.sectionRec i).state = .armed ∧ s.contributes i c = true ∧ (!s.otherContributes i c) = true then .refusedSole
    else .ok := by
  have sect : s.sectionOfChannel c = some (i, (s.sectionRec i).state) := by
    rw [State.sectionOfChannel, State.channelEntry, named]
    rfl
  rw [State.lensCheck, if_neg (by rw [mode]; exact nofun), if_neg (entry_inUse known used), if_neg (not_not.2 idle), own]
  dsimp only
  rw [if_neg data, sect]

end

/-! ## The answer (R167, R168) -/

section
variable {s : State} {source : Byte} (takes : Takes s source) (tag channel : Byte)
include takes

theorem exec_testLens_refused {r : Result} (check : s.lensCheck channel.toNat = r) (refused : r ≠ .ok := by exact nofun) :
    exec (.testLens source tag [channel]) s = .next (s.respond ⟨source, tag, 0x23, r, []⟩) := by
  subst check
  exact request_served takes (congrArg served (if_neg refused)) tag 0x23

theorem exec_testLens_accepted (check : s.lensCheck channel.toNat = .ok) :
    exec (.testLens source tag [channel]) s =
      .next ((s.acceptTest channel.toNat).respond ⟨source, tag, 0x23, .ok, []⟩) :=
  request_served takes (congrArg served (if_pos check)) tag 0x23

end

theorem respond_lens (s : State) (r : Response) : (s.respond r).lens = s.lens := by
  unfold State.respond
  split
  · exact (pushRoutine_kept s r).lens
  · rfl

theorem respond_disturbed (s : State) (r : Response) : (s.respond r).agent.disturbed = s.agent.disturbed := by
  unfold State.respond
  split
  · exact congrArg Agent.disturbed (startIfIdle_agent _)
  · rfl

/-- Where an answer goes while a frame is being sent (R168). -/
theorem respond_busy {s : State} (busy : Busy s) (r : Response) : (s.respond r).loop.controlQ = s.loop.controlQ ∧
    (s.loop.routineQ.length < 4 →
      (s.respond r).loop.routineQ = s.loop.routineQ ++ [r] ∧ (s.respond r).agent.held = s.agent.held) ∧
    (4 ≤ s.loop.routineQ.length →
      (s.respond r).loop.routineQ = s.loop.routineQ ∧ (s.respond r).agent.held = s.agent.held ++ [r]) := by
  obtain ⟨-, answers⟩ := waitingFramesTakeRoom
  obtain ⟨room, -, full⟩ := answers s r
  by_cases fits : s.loop.routineQ.length < 4
  · rw [room busy fits]
    exact ⟨rfl, fun _ => ⟨rfl, rfl⟩, fun none => absurd fits (Nat.not_lt.2 none)⟩
  · rw [full (Nat.not_lt.1 fits)]
    exact ⟨rfl, fun some => absurd some fits, fun _ => ⟨rfl, rfl⟩⟩

/-! ## An accepted test (R135, R136, R145, R159) -/

theorem testBegun_kept (s : State) (c : Nat) : KeptByLens s (s.testBegun c) :=
  ((setLens_kept s _).trans (disturb_kept _).toKeptByLens).trans (startTesting_kept _ c).toKeptByLens

/-- A test that begins touches neither the CONTROL nor the ROUTINE queue, nor a frame that is being sent. -/
theorem testBegun_only (s : State) (c : Nat) : OnlyTrips s (s.testBegun c) :=
  have set : OnlyTrips s (s.setLens { s.lens with channel := some c, peak := 0, count := 0 }) := .of_same rfl rfl rfl rfl rfl
  (OnlyRecords.trans set (disturb_onlyTrips _)).trans (startTesting_onlyTrips _ c)

theorem testFrame_congr {s t : State} (h : t.tables = s.tables) (c : Nat) (on : Bool) : t.testFrame c on = s.testFrame c on := by
  unfold State.testFrame State.channelEntry
  rw [h]

/-- An accepted test disturbs a validation that runs, and what follows leaves it disturbed (R145, R159). -/
theorem acceptTest_disturbs {s : State} (validating : s.agent.state = .validating) (c : Nat) :
    (s.acceptTest c).agent.disturbed = true := by
  have offered := Demands.keeps (offerTest_byDemands (s.testBegun c) ((s.testBegun c).testFrame c true))
  have begun := Demands.keeps
    (startTesting_byDemands ((s.setLens { s.lens with channel := some c, peak := 0, count := 0 }).disturb) c)
  have disturbed := disturb_disturbed (s.setLens { s.lens with channel := some c, peak := 0, count := 0 })
  refine offered.disturbed (begun.disturbed (disturbed ?_))
  exact (disturb_kept _).state.trans validating

/-- Where the TEST(on) frame of an accepted test goes while a frame is being sent; the ROUTINE queue stands (R136). -/
theorem acceptTest_busy {s : State} (busy : Busy s) (c : Nat) :
    Busy (s.acceptTest c) ∧ (s.acceptTest c).loop.routineQ = s.loop.routineQ ∧
    (s.lens.held = [] → s.loop.controlQ.length < 4 →
      (s.acceptTest c).loop.controlQ = s.loop.controlQ ++ [.test (s.testFrame c true)] ∧ (s.acceptTest c).lens.held = []) ∧
    ((s.lens.held ≠ [] ∨ 4 ≤ s.loop.controlQ.length) →
      (s.acceptTest c).loop.controlQ = s.loop.controlQ ∧
        (s.acceptTest c).lens.held = s.lens.held ++ [s.testFrame c true]) := by
  have only := testBegun_only s c
  have held : (s.testBegun c).lens.held = s.lens.held := by rw [testBegun_lens]
  have sending := only.busy busy
  obtain ⟨queued, kept⟩ := offerTest_busy (s := s.testBegun c) (by rw [Busy, sending]; exact busy) ((s.testBegun c).testFrame c true)
  rw [held, only.control, testFrame_congr (testBegun_kept s c).active] at queued kept
  rw [acceptTest_eq, testFrame_congr (testBegun_kept s c).active]
  by_cases room : s.lens.held = [] ∧ s.loop.controlQ.length < 4
  · rw [queued room.1 room.2]
    refine ⟨?_, only.routine, fun _ _ => ⟨rfl, held.trans room.1⟩, fun none => ?_⟩
    · exact fun idle => busy (sending.symm.trans idle)
    · exact absurd room (by rw [not_and_or, Nat.not_lt]; exact none)
  · have none : s.lens.held ≠ [] ∨ 4 ≤ s.loop.controlQ.length := by
      rwa [not_and_or, Nat.not_lt] at room
    rw [kept none]
    exact ⟨fun idle => busy (sending.symm.trans idle), only.routine, fun free fits => absurd ⟨free, fits⟩ room,
      fun _ => ⟨only.control, rfl⟩⟩

/-- Settles O33: the checks one by one, and the accepted test with its frame and its answer. -/
theorem lensTestAcceptance : Obligations.lensTestAcceptance := by
  unfold Obligations.lensTestAcceptance
  intro s source tag channel takes c e refused on ok
  have refuses : ∀ {r : Result}, s.lensCheck c = r → r ≠ .ok → refused r := fun check other =>
    exec_testLens_refused takes tag channel check other
  refine ⟨fun mode => refuses (lensCheck_unconfigured mode) nofun,
    fun mode unknown => refuses (lensCheck_badIndex mode unknown) nofun, fun mode known used =>
    ⟨fun busy => refuses (lensCheck_busy mode known used busy) nofun, fun r own idle =>
      ⟨fun noData => refuses (lensCheck_noData mode known used own idle noData) nofun,
        fun data i named => ?_, fun data passes => ?_⟩⟩⟩
  · have check := lensCheck_section mode known used own idle data named
    refine ⟨fun lively => refuses (check.trans (if_pos lively)) nofun, fun armed contributes alone =>
      refuses (check.trans ((if_neg ?_).trans (if_pos ⟨armed, contributes, ?_⟩))) nofun⟩
    · rw [armed]
      exact nofun
    · rw [Bool.not_eq_true', Bool.eq_false_iff]
      intro other
      obtain ⟨c', below, differs, contributes'⟩ := (otherContributes_iff s i c).1 other
      rw [alone c' below differs] at contributes'
      cases contributes'
  · have accepted : s.lensCheck c = .ok := by
      cases named : e.sectOf with
      | none => exact lensCheck_noSection mode known used own idle data named
      | some i =>
        obtain ⟨unlit, untripped, shared⟩ := passes i named
        rw [lensCheck_section mode known used own idle data named, if_neg (not_or.2 ⟨unlit, untripped⟩), if_neg]
        rintro ⟨armed, contributes, sole⟩
        rw [(otherContributes_iff s i c).2 (shared armed contributes)] at sole
        cases sole
    obtain ⟨held, lens⟩ := acceptTest_lens s c
    have answered := respond_kept (s.acceptTest c) ok
    have kept := acceptTest_kept s c
    have engine : ((s.acceptTest c).respond ok).lens = ⟨.starting, some c, 0, 0, .running 200, held⟩ :=
      (respond_lens _ ok).trans lens
    have channels : ∀ j, ((s.acceptTest c).respond ok).channel j = if j = c then some { r with cond := .testing } else s.channel j :=
      fun j => (State.channel_congr answered.channels j).trans (channel_acceptTest own j)
    refine ⟨_, exec_testLens_accepted takes tag channel accepted, by rw [engine], by rw [engine], by rw [engine], by rw [engine],
      by rw [engine], (channels c).trans (if_pos rfl), fun j other => (channels j).trans (if_neg other),
      fun validating => (respond_disturbed _ ok).trans (acceptTest_disturbs validating c), answered.points.trans kept.points,
      answered.positions.trans kept.positions, answered.nodes.trans kept.nodes, fun busy => ?_⟩
    obtain ⟨-, -, unheld, -⟩ := takes
    obtain ⟨still, routine, queued, waits⟩ := acceptTest_busy busy c
    obtain ⟨control, room, full⟩ := respond_busy still ok
    rw [routine, kept.held, unheld] at room full
    rw [← control, ← respond_lens (s.acceptTest c) ok] at queued waits
    exact ⟨queued, waits, room, full⟩

end Sys2Proof.Machine
end

section
/-! SUPPORT. DISCARD_SHADOW (R155), and the checks of ACTIVATE before a validation begins (R158). -/

namespace Sys2Proof.Machine

open Sys2Proof.Safety

/-! ## A request taken, with an answer or with none yet (R158, R167) -/

/-- A request that is answered with data. -/
theorem request_answered {s t : State} {source : Byte} (takes : Takes s source) {serve : State → Served} {r : Result} {data : List Byte}
    (answers : serve s = (t, some (r, data))) (tag code : Byte) :
    (.next (s.outsideReset fun s => s.takeRequest source tag code serve) : Outcome) =
      .next (t.respond ⟨source, tag, code, r, data⟩) := by
  rw [outsideReset_up takes.1, takeRequest_answered takes answers]

/-- A request that is taken and whose answer is to come leaves what serving it leaves. -/
theorem request_deferred {s t : State} {source : Byte} (takes : Takes s source) {serve : State → Served}
    (defers : serve s = (t, none)) (tag code : Byte) :
    (.next (s.outsideReset fun s => s.takeRequest source tag code serve) : Outcome) = .next t := by
  obtain ⟨up, known, held, pending⟩ := takes
  rw [outsideReset_up up, State.takeRequest, if_neg (by rw [held, pending]; simpa using known), defers]

/-! ## DISCARD_SHADOW (R155) -/

theorem serveDiscardShadow_validating {s : State} (validating : s.agent.state = .validating) :
    serveDiscardShadow [] s = s.refuse .busy :=
  (if_neg (not_not_intro rfl)).trans (if_pos validating)

theorem serveDiscardShadow_idle {s : State} (idle : s.agent.state = .idle) :
    serveDiscardShadow [] s =
      (({ s with agent := { s.agent with shadow := s.agent.active } } : State), some (.ok, [])) :=
  (if_neg (not_not_intro rfl)).trans (if_neg (by rw [idle]; exact nofun))

/-! ## ACTIVATE (R158) -/

section
variable {s : State} (source tag : Byte)

theorem serveActivate_validating (validating : s.agent.state = .validating) : serveActivate source tag [] s = s.refuse .busy :=
  (if_neg (not_not_intro rfl)).trans (if_pos validating)

/-- While IDLE the store is asked first, and then the switchgear. -/
theorem serveActivate_idle (idle : s.agent.state = .idle) : serveActivate source tag [] s =
    if s.store.state = .writing then s.refuse .storeBusy
    else if s.quiet = false then s.refuse .refusedState
    else ({ s with agent := { s.agent with
      state := .validating, activation := some ⟨tag, source⟩, disturbed := false } }, none) :=
  (if_neg (not_not_intro rfl)).trans (if_neg (by rw [idle]; exact nofun))

end

/-- What keeps the switchgear from being quiet, one by one (R158). -/
theorem not_quiet_iff (s : State) : s.quiet = false ↔ s.trip.orders ≠ [] ∨ s.lens.state ≠ .idle ∨
    ∃ i, i < 16 ∧ ((s.sectionRec i).state = .light ∨ (s.sectionRec i).state = .tripped) := by
  rw [← Bool.not_eq_true, quiet_iff, not_and_or, not_and_or, or_comm (a := ¬ ∀ i, _)]
  simp only [not_forall, not_not, exists_prop]

/-- Settles O37: each request by the checks that it meets, in their order. -/
theorem discardAndActivate : Obligations.discardAndActivate := by
  unfold Obligations.discardAndActivate
  intro s source tag takes
  refine ⟨fun validating => ⟨request_answered takes (serveDiscardShadow_validating validating) tag 0x11,
    request_answered takes (serveActivate_validating source tag validating) tag 0x12⟩, fun idle => ?_⟩
  have served := serveActivate_idle source tag idle
  refine ⟨request_answered takes (serveDiscardShadow_idle idle) tag 0x11,
    fun writing => request_answered takes (served.trans (if_pos writing)) tag 0x12, fun stored lively => ?_,
    fun stored orders lens calm => ?_⟩
  · have unquiet : s.quiet = false := (not_quiet_iff s).2 lively
    exact request_answered takes (served.trans ((if_neg stored).trans (if_pos unquiet))) tag 0x12
  · have quiet : s.quiet = true := (quiet_iff s).2 ⟨orders, fun i known => not_or.2 (calm i known), lens⟩
    exact request_deferred takes (served.trans ((if_neg stored).trans (if_neg (by rw [quiet]; exact nofun)))) tag 0x12

end Sys2Proof.Machine
end

section
/-! SUPPORT. The validation of a table set (R156, R157): the first failure in the order of the tables, and what each of the five checks
asks of an entry. -/

namespace Sys2Proof.Machine

/-! ## The first failure (R156) -/

/-- Every in-use entry of a table of some size passes its check. -/
def EntriesPass (size : Nat) (used ok : Nat → Bool) : Prop := ∀ i, i < size → used i = true → ok i = true

/-- An entry is in use and fails its check, and no in-use entry of lower index does (R156). -/
def FailsFirst (size : Nat) (used ok : Nat → Bool) (i : Nat) : Prop :=
  i < size ∧ used i = true ∧ ok i = false ∧ ∀ j, j < i → used j = true → ok j = true

section
variable {table : TableId} {check : Nat} {used ok : Nat → Bool}

theorem failureOf_eq_none_iff : failureOf table check used ok = none ↔ EntriesPass table.size used ok := by
  simp [failureOf, EntriesPass]

theorem failureOf_eq_some_iff {f : TableFailure} : failureOf table check used ok = some f ↔
    f.table = table ∧ f.check = check ∧ FailsFirst table.size used ok f.index := by
  have found (i : Nat) : (List.range table.size).find? (fun i => used i && !ok i) = some i ↔
      FailsFirst table.size used ok i := by
    simp only [List.find?_range_eq_some, List.mem_range, Bool.and_eq_true, Bool.not_eq_true', Bool.and_eq_false_imp,
      Bool.not_eq_false', FailsFirst]
    tauto
  obtain ⟨t, i, c⟩ := f
  simp only [failureOf, Option.map_eq_some_iff, found, TableFailure.mk.injEq]
  constructor
  · rintro ⟨_, fails, rfl, rfl, rfl⟩
    exact ⟨rfl, rfl, fails⟩
  · rintro ⟨rfl, rfl, fails⟩
    exact ⟨i, fails, rfl, rfl, rfl⟩

end

section
variable {t : Tables}

/-- A set passes when the in-use entries of every table do (R156). -/
theorem validate_eq_none_iff : t.validate = none ↔
    EntriesPass 48 t.nodeUsed t.nodeOk ∧ EntriesPass 96 t.channelUsed t.channelOk ∧ EntriesPass 24 t.pointUsed t.pointOk ∧
    EntriesPass 24 t.breakerUsed t.breakerOk ∧ EntriesPass 16 t.sectionUsed t.sectionOk := by
  simp only [Tables.validate, Option.or_eq_none_iff, failureOf_eq_none_iff, TableId.size]

/-- The tables are examined one after the other, each once those before it pass (R156). -/
theorem validate_eq_some_iff {f : TableFailure} : t.validate = some f ↔
    (f.table = .node ∧ f.check = 1 ∧ FailsFirst 48 t.nodeUsed t.nodeOk f.index) ∨
    EntriesPass 48 t.nodeUsed t.nodeOk ∧
      ((f.table = .channel ∧ f.check = 2 ∧ FailsFirst 96 t.channelUsed t.channelOk f.index) ∨
      EntriesPass 96 t.channelUsed t.channelOk ∧
        ((f.table = .point ∧ f.check = 3 ∧ FailsFirst 24 t.pointUsed t.pointOk f.index) ∨
        EntriesPass 24 t.pointUsed t.pointOk ∧
          ((f.table = .breaker ∧ f.check = 4 ∧ FailsFirst 24 t.breakerUsed t.breakerOk f.index) ∨
          EntriesPass 24 t.breakerUsed t.breakerOk ∧
            f.table = .sect ∧ f.check = 5 ∧ FailsFirst 16 t.sectionUsed t.sectionOk f.index))) := by
  simp only [Tables.validate, Option.or_eq_some_iff, failureOf_eq_none_iff, failureOf_eq_some_iff, TableId.size]

/-- Each table has its own check (R156). -/
theorem check_of_validate {f : TableFailure} (fails : t.validate = some f) :
    (f.table, f.check) ∈ [(TableId.node, 1), (.channel, 2), (.point, 3), (.breaker, 4), (.sect, 5)] := by
  obtain ⟨table, i, check⟩ := f
  rcases validate_eq_some_iff.1 fails with
    ⟨rfl, rfl, -⟩ | ⟨-, ⟨rfl, rfl, -⟩ | ⟨-, ⟨rfl, rfl, -⟩ | ⟨-, ⟨rfl, rfl, -⟩ | ⟨-, rfl, rfl, -⟩⟩⟩⟩ <;> simp

variable {i : Nat}

theorem validate_eq_node_iff : t.validate = some ⟨.node, i, 1⟩ ↔ FailsFirst 48 t.nodeUsed t.nodeOk i := by
  simp [validate_eq_some_iff]

theorem validate_eq_channel_iff : t.validate = some ⟨.channel, i, 2⟩ ↔
    EntriesPass 48 t.nodeUsed t.nodeOk ∧ FailsFirst 96 t.channelUsed t.channelOk i := by
  simp [validate_eq_some_iff]

theorem validate_eq_point_iff : t.validate = some ⟨.point, i, 3⟩ ↔
    EntriesPass 48 t.nodeUsed t.nodeOk ∧ EntriesPass 96 t.channelUsed t.channelOk ∧ FailsFirst 24 t.pointUsed t.pointOk i := by
  simp [validate_eq_some_iff]

theorem validate_eq_breaker_iff : t.validate = some ⟨.breaker, i, 4⟩ ↔
    EntriesPass 48 t.nodeUsed t.nodeOk ∧ EntriesPass 96 t.channelUsed t.channelOk ∧ EntriesPass 24 t.pointUsed t.pointOk ∧
    FailsFirst 24 t.breakerUsed t.breakerOk i := by
  simp [validate_eq_some_iff]

theorem validate_eq_sect_iff : t.validate = some ⟨.sect, i, 5⟩ ↔
    EntriesPass 48 t.nodeUsed t.nodeOk ∧ EntriesPass 96 t.channelUsed t.channelOk ∧ EntriesPass 24 t.pointUsed t.pointOk ∧
    EntriesPass 24 t.breakerUsed t.breakerOk ∧ FailsFirst 16 t.sectionUsed t.sectionOk i := by
  simp [validate_eq_some_iff]

end

/-! ## What the checks are made of (R157) -/

@[simp] theorem inRange_iff {lo hi n : Nat} : inRange lo hi n = true ↔ lo ≤ n ∧ n ≤ hi := by
  simp [inRange]

/-- A two-byte field lies below a range that ends at FFFFh. -/
theorem toNat_le_word (w : Word16) : w.toNat ≤ 65535 := Nat.le_of_lt_succ w.isLt

/-- A one-byte field lies below a range that ends at FFh. -/
theorem toNat_le_byte (b : Byte) : b.toNat ≤ 255 := Nat.le_of_lt_succ b.isLt

@[simp] theorem noRepeats_iff {l : List Nat} : noRepeats l = true ↔ l.Nodup := by
  induction l with
  | nil => simp [noRepeats]
  | cons x l ih => simp [noRepeats, ih]

@[simp] theorem lowerHas_eq_false_iff {used p : Nat → Bool} {i : Nat} :
    lowerHas used p i = false ↔ ∀ j, j < i → used j = true → p j = false := by
  simp [lowerHas]

theorem countInRange_iff {kind count : Byte} : countInRange kind count = true ↔
    kind = 1 ∧ 1 ≤ count.toNat ∧ count.toNat ≤ 4 ∨ (kind = 2 ∨ kind = 3) ∧ 1 ≤ count.toNat ∧ count.toNat ≤ 2 := by
  have codes : NodeKind.light.code = 1 ∧ NodeKind.current.code = 2 ∧ NodeKind.breaker.code = 3 := ⟨rfl, rfl, rfl⟩
  unfold countInRange
  split_ifs with light named <;> simp_all

/-- The reference that checks 2 to 4 share: an in-use node entry of a kind, and a number below its count. -/
def NamesNode (t : Tables) (node number : Byte) (k : NodeKind) : Prop :=
  node.toNat < 48 ∧ t.nodeUsed node.toNat = true ∧ (t.node node.toNat).kind = k.code ∧
    number.toNat < (t.node node.toNat).count.toNat

theorem namesNode_iff {t : Tables} {node number : Byte} {k : NodeKind} :
    t.namesNode node number k = true ↔ NamesNode t node number k := by
  simp [Tables.namesNode, NamesNode, and_assoc]

theorem modeOf_isSome_iff {e : SectionEntry} : e.modeOf.isSome = true ↔ e.mode = 1 ∨ e.mode = 2 ∨ e.mode = 3 := by
  unfold SectionEntry.modeOf
  split_ifs <;> simp_all

theorem modeOf_eq_normal_iff {e : SectionEntry} : e.modeOf = some .normal ↔ e.mode = 1 := by
  unfold SectionEntry.modeOf
  split_ifs <;> simp_all

theorem modeOf_eq_disabled_iff {e : SectionEntry} : e.modeOf = some .disabled ↔ e.mode = 3 := by
  unfold SectionEntry.modeOf
  split_ifs <;> simp_all

/-! ## The five checks (R157) -/

section
variable {t : Tables} {i : Nat}

/-- Check 1. -/
theorem nodeOk_iff {e : NodeEntry} (own : t.node i = e) : t.nodeOk i = true ↔
    (1 ≤ e.address.toNat ∧ e.address.toNat ≤ 254) ∧ (1 ≤ e.position.toNat ∧ e.position.toNat ≤ 48) ∧
    (∀ j, j < i → t.nodeUsed j = true → (t.node j).address ≠ e.address ∧ (t.node j).position ≠ e.position) ∧
    (e.kind = 1 ∧ 1 ≤ e.count.toNat ∧ e.count.toNat ≤ 4 ∨
      (e.kind = 2 ∨ e.kind = 3) ∧ 1 ≤ e.count.toNat ∧ e.count.toNat ≤ 2) ∧
    1 ≤ e.stale.toNat ∧ e.stale.toNat ≤ 50 := by
  subst own
  simp only [Tables.nodeOk, Bool.and_eq_true, Bool.not_eq_true', inRange_iff, lowerHas_eq_false_iff, decide_eq_false_iff_not,
    countInRange_iff]
  constructor
  · rintro ⟨⟨⟨⟨⟨address, addressAlone⟩, position⟩, positionAlone⟩, count⟩, stale⟩
    exact ⟨address, position, fun j lower used => ⟨addressAlone j lower used, positionAlone j lower used⟩, count, stale⟩
  · rintro ⟨address, position, alone, count, stale⟩
    exact ⟨⟨⟨⟨⟨address, fun j lower used => (alone j lower used).1⟩, position⟩, fun j lower used => (alone j lower used).2⟩,
      count⟩, stale⟩

/-- Check 2. -/
theorem channelOk_iff {e : ChannelEntry} (own : t.channel i = e) : t.channelOk i = true ↔
    NamesNode t e.node e.number .light ∧
    (∀ j, j < i → t.channelUsed j = true → (t.channel j).node = e.node → (t.channel j).number ≠ e.number) ∧
    (e.sect = 0xFF ∨ e.sect.toNat ≤ 15) ∧ (1 ≤ e.threshold.toNat ∧ e.threshold.toNat ≤ 4094) ∧
    (1 ≤ e.decay.toNat ∧ e.decay.toNat ≤ 4095) ∧ 1 ≤ e.qualify.toNat ∧
    (e.window = 0 ∨ 8 ≤ e.window.toNat ∧ e.window.toNat ≤ 4095) ∧ (2 ≤ e.limit.toNat ∧ e.limit.toNat ≤ 15) ∧
    (256 ≤ e.gain0.toNat ∧ e.gain0.toNat ≤ 1023) ∧ (64 ≤ e.reference.toNat ∧ e.reference.toNat ≤ 4095) ∧
    16 ≤ e.testWindow.toNat := by
  subst own
  simp only [Tables.channelOk, Bool.and_eq_true, Bool.or_eq_true, Bool.not_eq_true', decide_eq_true_eq, inRange_iff, Nat.zero_le,
    true_and, toNat_le_word, toNat_le_byte, and_true, lowerHas_eq_false_iff, Bool.and_eq_false_imp, decide_eq_false_iff_not,
    namesNode_iff, and_assoc, ne_eq, Config.gainMin, Config.gainMax]

/-- Check 3. -/
theorem pointOk_iff {e : PointEntry} (own : t.point i = e) : t.pointOk i = true ↔
    NamesNode t e.node e.number .current ∧
    (∀ j, j < i → t.pointUsed j = true → (t.point j).node = e.node → (t.point j).number ≠ e.number) ∧
    1 ≤ e.scale.toNat ∧ 1 ≤ e.pickup.toNat ∧ 1 ≤ e.stretch.toNat := by
  subst own
  simp only [Tables.pointOk, Bool.and_eq_true, Bool.not_eq_true', decide_eq_true_eq, inRange_iff, toNat_le_word, toNat_le_byte,
    and_true, lowerHas_eq_false_iff, Bool.and_eq_false_imp, decide_eq_false_iff_not, namesNode_iff, and_assoc, ne_eq]

/-- Check 4. -/
theorem breakerOk_iff {e : BreakerEntry} (own : t.breaker i = e) : t.breakerOk i = true ↔
    (e.node ≠ 0xFF ∨ e.line ≠ 0xFF) ∧
    (e.node ≠ 0xFF → NamesNode t e.node e.number .breaker ∧
      ∀ j, j < i → t.breakerUsed j = true → (t.breaker j).node = e.node → (t.breaker j).number ≠ e.number) ∧
    (e.line = 0xFF ∨ e.line.toNat ≤ 3) ∧ e.backupLen.toNat ≤ 3 ∧
    (∀ b ∈ e.backupList, b < 24 ∧ t.breakerUsed b = true ∧ b ≠ i) ∧ e.backupList.Nodup ∧
    20 ≤ e.failure.toNat ∧ e.failure.toNat ≤ 500 := by
  subst own
  simp only [Tables.breakerOk, Bool.and_eq_true, Bool.or_eq_true, Bool.not_eq_true', decide_eq_true_eq, inRange_iff, Nat.zero_le,
    true_and, lowerHas_eq_false_iff, Bool.and_eq_false_imp, decide_eq_false_iff_not, noRepeats_iff, List.all_eq_true,
    namesNode_iff, and_assoc, ne_eq, or_iff_not_imp_left, not_not, Config.breakerCount]

/-- Check 5. -/
theorem sectionOk_iff {e : SectionEntry} (own : t.sectionAt i = e) : t.sectionOk i = true ↔
    (e.mode = 1 ∨ e.mode = 2 ∨ e.mode = 3) ∧ (e.fallback = 1 ∨ e.fallback = 2) ∧
    (1 ≤ e.boundaryLen.toNat ∧ e.boundaryLen.toNat ≤ 8) ∧
    (∀ b ∈ e.boundaryList, b < 24 ∧ t.breakerUsed b = true) ∧ e.boundaryList.Nodup ∧ e.confirmLen.toNat ≤ 6 ∧
    (∀ p ∈ e.confirmList, p < 24 ∧ t.pointUsed p = true) ∧ e.confirmList.Nodup ∧ (e.mode = 1 → e.confirmLen ≠ 0) ∧
    (e.mode ≠ 3 →
      ∃ c, c < 96 ∧ t.channelUsed c = true ∧ (t.channel c).sect ≠ 0xFF ∧ (t.channel c).sect.toNat = i) := by
  subst own
  simp only [Tables.sectionOk, Bool.and_eq_true, Bool.or_eq_true, Bool.not_eq_true', decide_eq_true_eq, inRange_iff,
    modeOf_isSome_iff, modeOf_eq_normal_iff, modeOf_eq_disabled_iff, noRepeats_iff, List.all_eq_true, List.any_eq_true,
    List.mem_range, sectOf_eq_some_iff, Bool.and_eq_false_imp, decide_eq_false_iff_not, and_assoc, ne_eq,
    or_iff_not_imp_left (a := (t.sectionAt i).mode = 3), Config.breakerCount, Config.pointCount, Config.channelCount]

end

/-- Settles O38: the tables are examined one after the other, and each check is spelled out once. -/
theorem validationFindsFirstFailure : Obligations.validationFindsFirstFailure := by
  unfold Obligations.validationFindsFirstFailure
  intro t
  exact ⟨validate_eq_none_iff, fun _ => check_of_validate,
    fun _ => ⟨validate_eq_node_iff, validate_eq_channel_iff, validate_eq_point_iff, validate_eq_breaker_iff,
      validate_eq_sect_iff⟩,
    fun _ => ⟨nodeOk_iff rfl, channelOk_iff rfl, pointOk_iff rfl, breakerOk_iff rfl, sectionOk_iff rfl⟩⟩

end Sys2Proof.Machine
end

section
/-! SUPPORT. WRITE_SHADOW (R154) and READ_TABLE (R174): an entry carries its whole image, and a write of consecutive images changes their
entries and no others. -/

namespace Sys2Proof.Machine

open Sys2Proof.Safety

/-! ## An entry carries its whole image (R195) -/

theorem wordBytes_word (hi lo : Byte) : wordBytes (word hi lo) = [hi, lo] := by
  have hiSmall : hi.toNat < 256 := hi.isLt
  have loSmall : lo.toNat < 256 := lo.isLt
  have high : (word hi lo).extractLsb' 8 8 = hi := BitVec.eq_of_toNat_eq <| by
    rw [BitVec.extractLsb'_toNat, word_toNat, Nat.shiftRight_eq_div_pow]
    omega
  have low : (word hi lo).extractLsb' 0 8 = lo := BitVec.eq_of_toNat_eq <| by
    rw [BitVec.extractLsb'_toNat, word_toNat, Nat.shiftRight_zero]
    omega
  rw [wordBytes, high, low]

theorem wordBytes_imageWord (b : List Byte) (i : Nat) : wordBytes (imageWord b i) = [imageByte b i, imageByte b (i + 1)] :=
  wordBytes_word _ _

/-- An image is the list of its bytes by place. -/
theorem map_imageByte_range (b : List Byte) : (List.range b.length).map (imageByte b) = b := by
  refine List.ext_getElem (by simp) fun i _ inside => ?_
  simp [imageByte, inside]

section
variable {b : List Byte}

theorem NodeEntry.image_ofImage (whole : b.length = 6) : (NodeEntry.ofImage b).image = b := by
  conv_rhs => rw [← map_imageByte_range b, whole]
  rfl

theorem ChannelEntry.image_ofImage (whole : b.length = 18) : (ChannelEntry.ofImage b).image = b := by
  conv_rhs => rw [← map_imageByte_range b, whole]
  simp only [ChannelEntry.image, ChannelEntry.ofImage, wordBytes_imageWord]
  rfl

theorem PointEntry.image_ofImage (whole : b.length = 8) : (PointEntry.ofImage b).image = b := by
  conv_rhs => rw [← map_imageByte_range b, whole]
  simp only [PointEntry.image, PointEntry.ofImage, wordBytes_imageWord]
  rfl

theorem BreakerEntry.image_ofImage (whole : b.length = 10) : (BreakerEntry.ofImage b).image = b := by
  conv_rhs => rw [← map_imageByte_range b, whole]
  simp only [BreakerEntry.image, BreakerEntry.ofImage, wordBytes_imageWord]
  rfl

theorem SectionEntry.image_ofImage (whole : b.length = 19) : (SectionEntry.ofImage b).image = b := by
  conv_rhs => rw [← map_imageByte_range b, whole]
  simp only [SectionEntry.image, SectionEntry.ofImage, Vector.toList_ofFn]
  rfl

end

/-! ## One entry written (R154) -/

section
variable {t : Tables} {table : TableId} {i : Nat} {x : List Byte}

theorem image_write_same (whole : x.length = table.imageLength) (known : i < table.size) :
    (t.write table i x).image table i = x := by
  cases table
  case node => simpa [Tables.write, Tables.image, Tables.node, show i < 48 from known] using NodeEntry.image_ofImage whole
  case channel => simpa [Tables.write, Tables.image, Tables.channel, show i < 96 from known] using ChannelEntry.image_ofImage whole
  case point => simpa [Tables.write, Tables.image, Tables.point, show i < 24 from known] using PointEntry.image_ofImage whole
  case breaker => simpa [Tables.write, Tables.image, Tables.breaker, show i < 24 from known] using BreakerEntry.image_ofImage whole
  case sect => simpa [Tables.write, Tables.image, Tables.sectionAt, show i < 16 from known] using SectionEntry.image_ofImage whole

theorem image_write_elsewhere {j : Nat} (elsewhere : j ≠ i) : (t.write table i x).image table j = t.image table j := by
  cases table <;>
    simp [Tables.write, Tables.image, Tables.node, Tables.channel, Tables.point, Tables.breaker, Tables.sectionAt,
      Vector.getElem?_setIfInBounds_ne elsewhere.symm]

theorem image_write_other {other : TableId} (differs : other ≠ table) (j : Nat) :
    (t.write table i x).image other j = t.image other j := by
  cases table
  case node => cases other with | node => exact absurd rfl differs | _ => rfl
  case channel => cases other with | channel => exact absurd rfl differs | _ => rfl
  case point => cases other with | point => exact absurd rfl differs | _ => rfl
  case breaker => cases other with | breaker => exact absurd rfl differs | _ => rfl
  case sect => cases other with | sect => exact absurd rfl differs | _ => rfl

end

/-! ## Consecutive entries written (R154) -/

section
variable {table : TableId}

theorem image_writeAll_elsewhere {j : Nat} (xs : List (List Byte)) (t : Tables) (first : Nat)
    (elsewhere : j < first ∨ first + xs.length ≤ j) : (t.writeAll table first xs).image table j = t.image table j := by
  induction xs generalizing t first with
  | nil => rfl
  | cons x xs ih =>
    rw [List.length_cons] at elsewhere
    exact (ih _ _ (by omega)).trans (image_write_elsewhere (by omega))

theorem image_writeAll_other {other : TableId} (differs : other ≠ table) (j : Nat) (xs : List (List Byte)) (t : Tables) (first : Nat) :
    (t.writeAll table first xs).image other j = t.image other j := by
  induction xs generalizing t first with
  | nil => rfl
  | cons x xs ih => exact (ih _ _).trans (image_write_other differs j)

/-- Each image reads back at its own place: what is written after it lies above. -/
theorem image_writeAll_same {xs : List (List Byte)} (whole : ∀ x ∈ xs, x.length = table.imageLength) (t : Tables) {first : Nat}
    (known : first + xs.length ≤ table.size) {k : Nat} {x : List Byte} (own : xs[k]? = some x) :
    (t.writeAll table first xs).image table (first + k) = x := by
  induction xs generalizing t first k with
  | nil => cases own
  | cons y xs ih =>
    rw [List.length_cons] at known
    cases k with
    | zero =>
      obtain rfl : y = x := Option.some.inj own
      exact (image_writeAll_elsewhere xs _ _ (.inl (Nat.lt_succ_self first))).trans
        (image_write_same (whole y List.mem_cons_self) (by omega))
    | succ k =>
      rw [← Nat.succ_add_eq_add_succ]
      exact ih (fun x mem => whole x (List.mem_cons_of_mem y mem)) _ (by omega) own

end

/-! ## Images one after another -/

theorem pieces_append {n : Nat} (some_bytes : 0 < n) {x : List Byte} (whole : x.length = n) (l : List Byte) :
    pieces n (x ++ l) = x :: pieces n l := by
  have later (i : Nat) : (x ++ l).drop ((i + 1) * n) = l.drop (i * n) := by
    rw [Nat.succ_mul, Nat.add_comm, ← List.drop_drop, ← whole, List.drop_left]
  unfold pieces
  rw [List.length_append, whole, Nat.add_div_left _ some_bytes, List.range_succ_eq_map, List.map_cons, List.map_map,
    Nat.zero_mul, List.drop_zero, ← whole, List.take_left, whole]
  simp only [Function.comp_def, Nat.succ_eq_add_one, later]

section
variable {n : Nat} {xs : List (List Byte)} (whole : ∀ x ∈ xs, x.length = n)
include whole

theorem length_flatten_whole : xs.flatten.length = xs.length * n := by
  rw [List.length_flatten, List.map_congr_left whole, List.map_const', List.sum_replicate, smul_eq_mul]

theorem pieces_flatten (some_bytes : 0 < n) : pieces n xs.flatten = xs := by
  induction xs with
  | nil => simp [pieces]
  | cons x xs ih =>
    rw [List.flatten_cons, pieces_append some_bytes (whole x List.mem_cons_self),
      ih fun y mem => whole y (List.mem_cons_of_mem x mem)]

end

/-! ## WRITE_SHADOW (R154) -/

theorem TableId.ofCode_code (table : TableId) : TableId.ofCode (byte table.code) = some table := by
  cases table <;> rfl

theorem TableId.imageLength_pos (table : TableId) : 0 < table.imageLength := by
  cases table <;> decide

section
variable {s : State} {table : TableId} {images : List (List Byte)} (some_image : images ≠ [])
  (whole : ∀ x ∈ images, x.length = table.imageLength)
include some_image whole

/-- What a request of whole images comes to: the agent's state and the last index are asked, and the images are written. -/
theorem serveWriteShadow_images (first : Byte) : serveWriteShadow (byte table.code :: first :: images.flatten) s =
    if s.agent.state = .validating then s.refuse .busy
    else if table.size < first.toNat + images.length then s.refuse .badIndex
    else
      ({ s with agent := { s.agent with shadow := s.agent.shadow.writeAll table first.toNat images } } : State).answer .ok
        [byte table.code, first, byte images.length] := by
  have length := length_flatten_whole whole
  have positive := table.imageLength_pos
  have some_bytes : images.flatten ≠ [] := by
    rw [← List.length_pos_iff, length]
    exact Nat.mul_pos (List.length_pos_iff.2 some_image) positive
  have entries : images.flatten.length / table.imageLength = images.length := by
    rw [length, Nat.mul_div_cancel _ positive]
  have exact_entries : images.flatten.length % table.imageLength = 0 := by
    rw [length, Nat.mul_mod_left]
  simp only [serveWriteShadow, TableId.ofCode_code]
  rw [if_neg (not_or.2 ⟨some_bytes, not_not_intro exact_entries⟩), entries, pieces_flatten whole positive]

end

/-! ## READ_TABLE (R174) -/

theorem setOf_flagByte (a : Agent) (shadowSet : Bool) :
    a.setOf (flagByte shadowSet) = some (if shadowSet then a.shadow else a.active) := by
  cases shadowSet <;> rfl

/-- What a well-formed request comes to: the count and the last index are asked, and the entries are read. -/
theorem serveReadTable_named (s : State) (table : TableId) (shadowSet : Bool) (first count : Byte) :
    serveReadTable [byte table.code, flagByte shadowSet, first, count] s =
    if count = 0 then s.refuse .badRequest
    else if table.size < first.toNat + count.toNat then s.refuse .badIndex
    else
      s.answer .ok (byte table.code :: flagByte shadowSet :: first :: byte (min count.toNat table.fits) ::
        (List.range (min count.toNat table.fits)).flatMap fun i =>
          (if shadowSet then s.agent.shadow else s.agent.active).image table (first.toNat + i)) := by
  simp only [serveReadTable, TableId.ofCode_code, setOf_flagByte]

/-- The images that fit fill a payload of 200 bytes, and one more would not fit (R174, R193). -/
theorem TableId.fits_spec (table : TableId) :
    7 + table.fits * table.imageLength ≤ 200 ∧ 200 < 7 + (table.fits + 1) * table.imageLength := by
  cases table <;> decide

/-- The number of images read is the largest that is asked for and fits. -/
theorem read_maximal (table : TableId) (count : Nat) :
    (min count table.fits = count ∨ 200 < 7 + (min count table.fits + 1) * table.imageLength) ∧
    7 + min count table.fits * table.imageLength ≤ 200 := by
  obtain ⟨fit, full⟩ := table.fits_spec
  rcases Nat.le_total count table.fits with few | many
  · rw [Nat.min_eq_left few]
    have less : count * table.imageLength ≤ table.fits * table.imageLength := Nat.mul_le_mul_right _ few
    exact ⟨.inl rfl, by omega⟩
  · rw [Nat.min_eq_right many]
    exact ⟨.inr full, fit⟩

/-- Settles O36: what each request comes to, check by check; then the images written one after another, and the number that fits. -/
theorem tableWritesAndReads : Obligations.tableWritesAndReads := by
  unfold Obligations.tableWritesAndReads
  refine ⟨fun s source tag first table images takes some_image whole => ?_,
    fun s source tag first count table shadowSet takes => ?_⟩
  · have served := serveWriteShadow_images (s := s) some_image whole first
    refine ⟨fun validating => request_answered takes (served.trans (if_pos validating)) tag 0x10, fun idle beyond => ?_,
      fun idle within => ?_⟩
    all_goals rw [if_neg (by rw [idle]; exact nofun)] at served
    · exact request_answered takes (served.trans (if_pos beyond)) tag 0x10
    · exact ⟨s.agent.shadow.writeAll table first.toNat images,
        request_answered takes (served.trans (if_neg (Nat.not_lt.2 within))) tag 0x10,
        fun k x own => image_writeAll_same whole _ within own, fun i outside => image_writeAll_elsewhere images _ _ outside,
        fun other i differs => image_writeAll_other differs i images _ _⟩
  · have served := serveReadTable_named s table shadowSet first count
    refine ⟨fun zero => request_answered takes (served.trans (if_pos zero)) tag 0x05, fun some_entry beyond => ?_,
      fun some_entry within => ?_⟩
    all_goals rw [if_neg some_entry] at served
    · exact request_answered takes (served.trans (if_pos beyond)) tag 0x05
    · obtain ⟨maximal, fits⟩ := read_maximal table count.toNat
      exact ⟨min count.toNat table.fits, Nat.min_le_left _ _, maximal, fits,
        request_answered takes (served.trans (if_neg (Nat.not_lt.2 within))) tag 0x05⟩

end Sys2Proof.Machine
end

section
/-! SUPPORT. Requests that are discarded (R167), and requests that are answered BAD_REQUEST (R169): by their code, by the number of their
parameters, and by the parameters that are none of R193's values. -/

namespace Sys2Proof.Machine

open Sys2Proof.Safety

/-! ## Requests discarded (R167) -/

theorem request_discarded {s : State} (closed : s.agent.held ≠ [] ∨ s.agent.softResetPending = true) (source tag code : Byte)
    (serve : State → Served) : (.next (s.outsideReset fun s => s.takeRequest source tag code serve) : Outcome) = .next s :=
  congrArg Host.Outcome.next (outsideReset_same (if_pos (.inr closed)))

/-! ## Values that are none of R193's -/

/-- A parameter with the two values 0 and 1 names nothing by any other value. -/
theorem neither_named {α : Type} {b : Byte} (other : b ∉ [0, 1]) (x y : Option α) :
    (if b = 0 then x else if b = 1 then y else none) = none := by
  simp only [List.mem_cons, List.not_mem_nil, or_false, not_or] at other
  obtain ⟨not_zero, not_one⟩ := other
  rw [if_neg not_zero, if_neg not_one]

theorem TableId.ofCode_other {b : Byte} (other : b ∉ [1, 2, 3, 4, 5]) : TableId.ofCode b = none := by
  refine List.find?_eq_none.2 fun t _ same => other ?_
  have named : b = byte t.code := by simp [byte, of_decide_eq_true same]
  rw [named]
  cases t <;> decide

theorem RequestCode.ofCode_other {code : Byte} (other : code ∉ requestCodes) : RequestCode.ofCode code = none := by
  refine List.find?_eq_none.2 fun c _ same => other ?_
  rw [← of_decide_eq_true same]
  cases c <;> decide

theorem serveCode_unknown {code : Byte} (unknown : code ∉ requestCodes) (source tag : Byte) (params : List Byte) (s : State) :
    serveCode code source tag params s = s.refuse .badRequest := by
  simp only [serveCode, RequestCode.ofCode_other unknown]

/-! ## The number of parameters (R169, R193) -/

section
variable {params : List Byte} (s : State)

/-- The requests that carry no parameter. -/
theorem refused_unless_none (other : params.length ≠ 0) : serveReadStatus params s = s.refuse .badRequest ∧
    serveDiscardShadow params s = s.refuse .badRequest ∧
    (∀ source tag, serveActivate source tag params s = s.refuse .badRequest) ∧
    serveReclaim params s = s.refuse .badRequest ∧ serveSoftReset params s = s.refuse .badRequest := by
  have some_params : params ≠ [] := fun none => other (congrArg List.length none)
  exact ⟨if_neg some_params, if_pos some_params, fun _ _ => if_pos some_params, if_neg some_params, if_neg some_params⟩

/-- The requests that carry one parameter. -/
theorem refused_unless_one (other : params.length ≠ 1) : serveReadChannel params s = s.refuse .badRequest ∧
    serveReadOrders params s = s.refuse .badRequest ∧ serveRelease params s = s.refuse .badRequest ∧
    serveTestLens params s = s.refuse .badRequest := by
  match params, other with
  | [], _ => exact ⟨rfl, rfl, rfl, rfl⟩
  | _ :: _ :: _, _ => exact ⟨rfl, rfl, rfl, rfl⟩

/-- The requests that carry two parameters. -/
theorem refused_unless_two (other : params.length ≠ 2) : serveReadEvents params s = s.refuse .badRequest ∧
    serveSetMaintenance params s = s.refuse .badRequest ∧ serveSetBlock params s = s.refuse .badRequest := by
  match params, other with
  | [], _ => exact ⟨rfl, rfl, rfl⟩
  | [_], _ => exact ⟨rfl, rfl, rfl⟩
  | _ :: _ :: _ :: _, _ => exact ⟨rfl, rfl, rfl⟩

theorem serveReadTable_length (other : params.length ≠ 4) : serveReadTable params s = s.refuse .badRequest := by
  unfold serveReadTable
  split
  · exact absurd rfl other
  · rfl

end

/-! ## READ_EVENTS, READ_TABLE and WRITE_SHADOW (R171, R174, R154) -/

theorem serveReadEvents_named {chain : Byte} {c : Chain} (names : Chain.ofCode chain = some c) (max : Byte) (s : State) :
    serveReadEvents [chain, max] s =
    if 1 ≤ max.toNat ∧ max.toNat ≤ 8 then
      ({ s with pool := s.pool.remove c max.toNat } : State).answer .ok (s.pool.eventsData c max.toNat)
    else s.refuse .badRequest := by
  simp only [serveReadEvents, names]

theorem serveReadEvents_refused {chain max : Byte} (other : chain ∉ [0, 1] ∨ max = 0 ∨ 8 < max.toNat) (s : State) :
    serveReadEvents [chain, max] s = s.refuse .badRequest := by
  cases names : Chain.ofCode chain with
  | none => simp only [serveReadEvents, names]
  | some c =>
    refine (serveReadEvents_named names max s).trans (if_neg fun ⟨least, most⟩ => ?_)
    rcases other with unnamed | rfl | many
    · exact absurd ((neither_named unnamed _ _).symm.trans names) nofun
    · exact absurd least (by decide)
    · exact absurd most (Nat.not_le.2 many)

theorem serveReadTable_refused {table set count : Byte} (other : table ∉ [1, 2, 3, 4, 5] ∨ set ∉ [0, 1] ∨ count = 0)
    (first : Byte) (s : State) : serveReadTable [table, set, first, count] s = s.refuse .badRequest := by
  rcases other with unnamed | unnamed | rfl
  · simp only [serveReadTable, TableId.ofCode_other unnamed]
  · have no_set : s.agent.setOf set = none := neither_named unnamed _ _
    simp only [serveReadTable, no_set]
    cases TableId.ofCode table <;> rfl
  · unfold serveReadTable
    dsimp only
    split
    · exact if_pos rfl
    · rfl

theorem serveWriteShadow_short {params : List Byte} (short : params.length < 3) (s : State) :
    serveWriteShadow params s = s.refuse .badRequest := by
  match params, short with
  | [], _ => rfl
  | [_], _ => rfl
  | [table, first], _ =>
    unfold serveWriteShadow
    dsimp only
    split
    · rfl
    · exact if_pos (.inl rfl)

theorem serveWriteShadow_unnamed {table : Byte} (unnamed : table ∉ [1, 2, 3, 4, 5]) (first : Byte) (images : List Byte) (s : State) :
    serveWriteShadow (table :: first :: images) s = s.refuse .badRequest := by
  simp only [serveWriteShadow, TableId.ofCode_other unnamed]

theorem serveWriteShadow_partial {table : TableId} {images : List Byte} (uneven : ¬ table.imageLength ∣ images.length) (first : Byte)
    (s : State) : serveWriteShadow (byte table.code :: first :: images) s = s.refuse .badRequest := by
  simp only [serveWriteShadow, TableId.ofCode_code]
  exact if_pos (.inr fun even => uneven (Nat.dvd_of_mod_eq_zero even))

/-! ## SET_MAINTENANCE and SET_BLOCK (R96) -/

theorem serveSetMaintenance_refused {value : Byte} (other : value ∉ [0, 1]) (sect : Byte) (s : State) :
    serveSetMaintenance [sect, value] s = s.refuse .badRequest := by
  have neither : onOff value = none := neither_named other _ _
  simp only [serveSetMaintenance, neither]

theorem serveSetBlock_refused {params : List Byte}
    (malformed : params.length ≠ 2 ∨ ∃ sect value, params = [sect, value] ∧ value ∉ [0, 1]) (s : State) :
    serveSetBlock params s = s.refuse .badRequest := by
  rcases malformed with length | ⟨sect, value, rfl, other⟩
  · obtain ⟨-, -, refused⟩ := refused_unless_two s length
    exact refused
  · have neither : onOff value = none := neither_named other _ _
    simp only [serveSetBlock, neither]

/-- A MGMT_REQUEST frame is a request of its tag and its code (R4, R167, R193). -/
theorem receive_request {f : Frame} {tag code : Byte} {params : List Byte} (source : f.source ≠ 0) (dest : f.dest = 0)
    (kind : f.kind = 0x40) (payload : f.payload = tag :: code :: params) (fits : f.payload.length ≤ 200) (s : State) :
    exec (.frameArrival f.bytes) s =
      .next (s.outsideReset fun s => s.takeRequest f.source tag code (serveCode code f.source tag params)) := by
  refine receive_sorted fits (fun s => (goodFrame_request source dest kind s).trans ?_) s
  rw [payload, State.requestFrame]

/-- Settles O40: the discards command by command, and then the requests taken, by what is wrong with each. -/
theorem refusedRequests : Obligations.refusedRequests := by
  unfold Obligations.refusedRequests
  refine ⟨fun s source tag sect code params closed => ?_, fun s source tag code params takes => ?_,
    fun s f tag params takes dest kind payload fits malformed => ?_⟩
  · simp only [List.forall_mem_cons]
    have discarded := request_discarded closed source tag
    exact ⟨discarded 0x01 _, discarded 0x02 _, discarded 0x03 _, discarded 0x04 _, discarded 0x05 _, discarded 0x10 _,
      discarded 0x11 _, discarded 0x12 _, discarded 0x20 _, discarded 0x21 _, discarded 0x22 _, discarded 0x22 _,
      discarded 0x23 _, discarded 0x30 _, discarded 0x31 _, discarded code _, nofun⟩
  · have refused {serve : State → Served} (bad : serve s = s.refuse .badRequest) := request_answered takes bad tag
    refine ⟨fun unknown => refused (serveCode_unknown unknown source tag params s) code, fun other => ?_, fun other => ?_,
      fun other => ?_, fun other => refused (serveReadTable_length s other) 0x05,
      fun short => refused (serveWriteShadow_short short s) 0x10,
      fun chain max other => refused (serveReadEvents_refused other s) 0x02,
      fun table set first count other => refused (serveReadTable_refused other first s) 0x05,
      fun table first unnamed => refused (serveWriteShadow_unnamed unnamed first params s) 0x10,
      fun table first uneven => refused (serveWriteShadow_partial uneven first s) 0x10,
      fun sect value other => refused (serveSetMaintenance_refused other sect s) 0x21⟩
    · obtain ⟨status, discard, activate, reclaim, reset⟩ := refused_unless_none s other
      exact ⟨refused status 0x01, refused discard 0x11, refused (activate source tag) 0x12, refused reclaim 0x30,
        refused reset 0x31⟩
    · obtain ⟨channel, orders, release, lens⟩ := refused_unless_one s other
      exact ⟨refused channel 0x03, refused orders 0x04, refused release 0x20, refused lens 0x23⟩
    · obtain ⟨events, maintenance, -⟩ := refused_unless_two s other
      exact ⟨refused events 0x02, refused maintenance 0x21⟩
  · have known : f.source ≠ 0 := takes.2.1
    exact (receive_request known dest kind payload fits s).trans
      (request_answered takes (serveSetBlock_refused malformed s) tag 0x22)

end Sys2Proof.Machine
end

section
/-! SUPPORT. READ_STATUS, READ_CHANNEL and READ_ORDERS (R170, R172, R173): the bytes of the data, item by item (R193), and the checks. -/

namespace Sys2Proof.Machine

open Sys2Proof.Safety

/-! ## The READ_STATUS data (R170, R193) -/

theorem DeviceMode.byte_code (m : DeviceMode) : byte m.code = match m with
    | .unconfigured => 0 | .protecting => 1 := by
  cases m <;> rfl

theorem ResetCause.byte_code (c : ResetCause) : byte c.code = match c with
    | .powerOn => 1 | .supplyDip => 2 | .pin => 3 | .soft => 4 := by
  cases c <;> rfl

theorem ClaimResult.byte_position (r : ClaimResult) : byte r.position = match r with
    | .mismatch p => byte p | .noResult => 0 | .matched => 0 | .unchecked => 0 := by
  cases r <;> rfl

theorem byte_getD_zero (position : Option Nat) : byte (position.getD 0) = match position with
    | none => 0 | some p => byte p := by
  cases position <;> rfl

/-- The state and the two flags of a section share its byte without overlap. -/
theorem SectionRec.statusByte_eq (r : SectionRec) : r.statusByte = (match r.state with
    | .inactive => 0 | .blocked => 1 | .armed => 2 | .light => 3 | .tripped => 4) +
      (if r.maintenance then 64 else 0) + (if r.block then 128 else 0) := by
  obtain ⟨state, maintenance, block⟩ := r
  cases state <;> cases maintenance <;> cases block <;> rfl

/-! ## READ_CHANNEL and READ_ORDERS (R172, R173) -/

section
variable {s : State} (index : Byte)

theorem serveReadChannel_unconfigured (mode : s.agent.mode = .unconfigured) :
    serveReadChannel [index] s = s.refuse .unconfigured := if_pos mode

theorem serveReadOrders_unconfigured (mode : s.agent.mode = .unconfigured) :
    serveReadOrders [index] s = s.refuse .unconfigured := if_pos mode

variable {index} (mode : s.agent.mode = .protecting)
include mode

theorem serveReadChannel_unused (unused : s.tables.channelUsed index.toNat = false) :
    serveReadChannel [index] s = s.refuse .badIndex :=
  (if_neg (by rw [mode]; exact nofun)).trans (if_neg (Bool.eq_false_iff.1 unused))

theorem serveReadChannel_used {r : ChannelRec} (used : s.tables.channelUsed index.toNat = true)
    (stands : s.channel index.toNat = some r) : serveReadChannel [index] s = s.answer .ok r.data := by
  refine (if_neg (by rw [mode]; exact nofun)).trans ((if_pos used).trans ?_)
  rw [stands]

theorem serveReadOrders_beyond (beyond : 24 ≤ index.toNat) : serveReadOrders [index] s = s.refuse .badIndex :=
  (if_neg (by rw [mode]; exact nofun)).trans (if_pos beyond)

theorem serveReadOrders_within (within : index.toNat < 24) : serveReadOrders [index] s =
    s.answer .ok (byte s.trip.orders.length :: index :: ((s.trip.orders.drop index.toNat).take 12).flatMap s.orderImage) :=
  (if_neg (by rw [mode]; exact nofun)).trans (if_neg (Nat.not_le.2 within))

end

/-- Settles O41: the status bytes are the model's, item by item, and the two reads answer by their checks. -/
theorem readingRequests : Obligations.readingRequests := by
  unfold Obligations.readingRequests
  intro s source tag index takes answered sectionByte status
  have same : s.statusData = status := by
    unfold State.statusData
    rw [DeviceMode.byte_code, ResetCause.byte_code, ClaimResult.byte_position, byte_getD_zero,
      funext fun i => (s.sectionRec i).statusByte_eq, List.append_assoc]
    rfl
  refine ⟨?_, rfl, fun mode => ⟨request_answered takes (serveReadChannel_unconfigured index mode) tag 0x03,
    request_answered takes (serveReadOrders_unconfigured index mode) tag 0x04⟩, fun mode => ⟨fun unknown => ?_,
    fun r used stands => request_answered takes (serveReadChannel_used mode used stands) tag 0x03,
    fun beyond => request_answered takes (serveReadOrders_beyond mode beyond) tag 0x04,
    fun within => request_answered takes (serveReadOrders_within mode within) tag 0x04⟩⟩
  · rw [← same]
    exact request_answered takes rfl tag 0x01
  · have unused : s.tables.channelUsed index.toNat = false :=
      unknown.elim (fun beyond => channelUsed_beyond _ (Nat.not_lt.2 beyond)) id
    exact request_answered takes (serveReadChannel_unused mode unused) tag 0x03

end Sys2Proof.Machine
end

section
/-! SUPPORT. READ_EVENTS (R171, R184) of each chain. -/

namespace Sys2Proof.Machine

open Sys2Proof.Safety

/-- A read of 1 to 8 records of the chain that a code names. -/
theorem exec_readEvents {s : State} {source : Byte} (takes : Takes s source) (tag : Byte) {chain max : Byte} {c : Chain}
    (names : Chain.ofCode chain = some c) (least : 1 ≤ max.toNat) (most : max.toNat ≤ 8) :
    exec (.readEvents source tag [chain, max]) s = .next (({ s with pool := s.pool.remove c max.toNat } : State).respond
      ⟨source, tag, 0x02, .ok, s.pool.eventsData c max.toNat⟩) :=
  request_answered takes ((serveReadEvents_named names max s).trans (if_pos ⟨least, most⟩)) tag 0x02

/-- The number of records returned is the smaller of `max` and the chain's length (R171). -/
theorem eventsData_eq (p : EventPool) (c : Chain) (n : Nat) : p.eventsData c n =
    byte (min n (p.chain c).length) :: flagByte (p.truncated c) :: ((p.chain c).take n).flatMap fun x => x.record.image := by
  rw [EventPool.eventsData, List.length_take]

/-- Settles O42: the read of a chain, for each of the two. -/
theorem eventReads : Obligations.eventReads := by
  unfold Obligations.eventReads
  intro s source tag max takes least most p n data
  have trip := exec_readEvents takes tag (chain := 0) rfl least most
  have general := exec_readEvents takes tag (chain := 1) rfl least most
  rw [eventsData_eq] at trip general
  exact ⟨trip, general⟩

end Sys2Proof.Machine
end

section
/-! SUPPORT. The slots of the Event Pool (R180): making records and reading them only moves slots between the two chains and the free
list, whatever event it is; the end of a hard reset alone begins with an empty pool. -/

namespace Sys2Proof.Machine

open Sys2Proof.Safety

/-! ## The Event Pool's own operations (R180 to R184) -/

theorem takes_slots (made : List RecordBody) (time : Word32) (p : EventPool) :
    (made.foldl (fun p b => p.take time b) p).slots.Perm p.slots := by
  induction made generalizing p with
  | nil => exact .refl _
  | cons b made ih => exact (ih _).trans (take_slots p time b)

/-- A read of a chain moves the slots of the records that it removes to the tail of the free list (R184). -/
theorem remove_slots (p : EventPool) (c : Chain) (n : Nat) : (p.remove c n).slots.Perm p.slots := by
  have parts : ∀ chain : List Slot,
      (chain.take n).map Slot.number ++ (chain.drop n).map Slot.number = chain.map Slot.number := fun chain => by
    rw [← List.map_append, List.take_append_drop]
  have toTail : ∀ removed rest free : List Nat, (rest ++ (free ++ removed)).Perm (removed ++ rest ++ free) :=
    fun removed rest free => by
      rw [← List.append_assoc, List.append_assoc removed]
      exact List.perm_append_comm
  cases c with
  | trip =>
    refine (toTail ((p.tripChain.take n).map Slot.number)
      ((p.tripChain.drop n).map Slot.number ++ p.generalChain.map Slot.number) p.free).trans (.of_eq ?_)
    rw [← List.append_assoc, parts]
    rfl
  | general =>
    have moved := toTail ((p.generalChain.take n).map Slot.number) ((p.generalChain.drop n).map Slot.number) p.free
    rw [parts] at moved
    have below := moved.append_left (p.tripChain.map Slot.number)
    exact (List.Perm.of_eq (List.append_assoc _ _ _)).trans (below.trans (.of_eq (List.append_assoc _ _ _).symm))

/-! ## What keeps the slots -/

/-- The slots of the two chains and of the free list together are the same. -/
def KeepsSlots (s t : State) : Prop := t.pool.slots.Perm s.pool.slots

theorem KeepsSlots.refl (s : State) : KeepsSlots s s := List.Perm.refl _

theorem KeepsSlots.trans {s t u : State} (h : KeepsSlots s t) (k : KeepsSlots t u) : KeepsSlots s u := List.Perm.trans k h

theorem KeepsSlots.of_pool {s t : State} (pool : t.pool = s.pool) : KeepsSlots s t := .of_eq (congrArg EventPool.slots pool)

theorem KeepsSlots.partitioned {s t : State} (h : KeepsSlots s t) (i : PoolPartitioned s) : PoolPartitioned t := List.Perm.trans h i

theorem OnlyRecords.keepsSlots {ok : RecordKind → Prop} {s t : State} (h : OnlyRecords ok s t) : KeepsSlots s t := by
  obtain ⟨made, pool, -⟩ := h.pool
  unfold KeepsSlots
  rw [pool]
  exact takes_slots made _ _

theorem MakesRecords.keepsSlots {s t : State} (h : MakesRecords s t) : KeepsSlots s t := by
  obtain ⟨-, made, -, pool⟩ := h
  unfold KeepsSlots
  rw [pool]
  exact takes_slots made _ _

theorem record_keepsSlots (s : State) (b : RecordBody) : KeepsSlots s (s.record b) := take_slots _ _ _

theorem setLoop_keepsSlots (s : State) (l : LoopPort) : KeepsSlots s (s.setLoop l) := .refl _

/-! ## Loop Port -/

theorem startNext_keepsSlots (s : State) : KeepsSlots s s.startNext := .of_pool (startNext_onlyQueues s).pool

theorem startIfIdle_keepsSlots (s : State) : KeepsSlots s s.startIfIdle := by
  unfold State.startIfIdle
  split
  · exact startNext_keepsSlots s
  · exact .refl s

theorem pushControl_keepsSlots (s : State) (f : ControlFrame) : KeepsSlots s (s.pushControl f) :=
  (setLoop_keepsSlots s _).trans (startIfIdle_keepsSlots _)

theorem pushRoutine_keepsSlots (s : State) (r : Response) : KeepsSlots s (s.pushRoutine r) :=
  (setLoop_keepsSlots s _).trans (startIfIdle_keepsSlots _)

theorem queueOrSkip_keepsSlots (s : State) (f : ControlFrame) : KeepsSlots s (s.queueOrSkip f) := by
  unfold State.queueOrSkip
  split
  · exact pushControl_keepsSlots s f
  · exact .refl s

theorem queueWaitingClaim_keepsSlots (s : State) : KeepsSlots s s.queueWaitingClaim := by
  unfold State.queueWaitingClaim
  split
  · exact (setLoop_keepsSlots s _).trans (pushControl_keepsSlots _ _)
  · exact .refl s

theorem offerHeldResponses_keepsSlots (s : State) (n : Nat) : KeepsSlots s (s.offerHeldResponses n) := by
  induction n generalizing s with
  | zero => exact .refl s
  | succ n ih =>
    unfold State.offerHeldResponses
    split
    · exact .refl s
    next r rest _ =>
      split
      · have left : KeepsSlots s { s with agent := { s.agent with held := rest } } := .refl _
        exact (left.trans (pushRoutine_keepsSlots _ r)).trans (ih _)
      · exact .refl s

theorem tellControlRoom_keepsSlots (s : State) : KeepsSlots s s.tellControlRoom :=
  (queueWaitingClaim_keepsSlots s).trans (.of_pool (queueHeldTests_onlyQueues _).pool)

theorem settleRoom_keepsSlots (s : State) : KeepsSlots s s.settleRoom :=
  (tellControlRoom_keepsSlots s).trans (offerHeldResponses_keepsSlots _ _)

theorem enterClaiming_keepsSlots (s : State) : KeepsSlots s s.enterClaiming :=
  (setLoop_keepsSlots s _).trans (queueWaitingClaim_keepsSlots _)

theorem enterOpen_keepsSlots (s : State) (c : OpenCause) : KeepsSlots s (s.enterOpen c) := by
  have recut : KeepsSlots s (s.setLoop s.loop.toOpen).tellControlRoom.recomputeCut :=
    ((setLoop_keepsSlots s _).trans (tellControlRoom_keepsSlots _)).trans (recomputeCut_onlyTrips _).keepsSlots
  exact ((recut.trans (record_keepsSlots _ _)).trans (queueOrSkip_keepsSlots _ _)).trans (setLoop_keepsSlots _ _)

theorem supervisionReturns_keepsSlots (s : State) : KeepsSlots s s.supervisionReturns := by
  unfold State.supervisionReturns
  split
  · exact setLoop_keepsSlots s _
  · exact .refl s

theorem beaconReturns_keepsSlots (s : State) : KeepsSlots s s.beaconReturns := by
  unfold State.beaconReturns
  split
  · exact (enterClaiming_keepsSlots s).trans (settleRoom_keepsSlots _)
  · exact .refl s

theorem claimReturns_keepsSlots (s : State) (seq : Byte) (p : List Byte) : KeepsSlots s (s.claimReturns seq p) := by
  unfold State.claimReturns
  split
  · exact .refl s
  · split
    · exact ((setLoop_keepsSlots s _).trans (record_keepsSlots _ _)).trans (setLoop_keepsSlots _ _)
    · exact .refl s

theorem claimExpiry_keepsSlots (s : State) : KeepsSlots s s.claimExpiry := by
  unfold State.claimExpiry
  split
  · exact enterOpen_keepsSlots s _
  · exact .refl s

theorem supervisionExpiry_keepsSlots (s : State) : KeepsSlots s s.supervisionExpiry := by
  unfold State.supervisionExpiry
  split
  · exact enterOpen_keepsSlots s _
  · exact .refl s

theorem supervisionSendExpiry_keepsSlots (s : State) : KeepsSlots s s.supervisionSendExpiry := by
  unfold State.supervisionSendExpiry
  split
  · exact (setLoop_keepsSlots s _).trans (queueOrSkip_keepsSlots _ _)
  · exact .refl s

theorem beaconExpiry_keepsSlots (s : State) : KeepsSlots s s.beaconExpiry := by
  unfold State.beaconExpiry
  split
  · exact (setLoop_keepsSlots s _).trans (queueOrSkip_keepsSlots _ _)
  · exact .refl s

theorem loopActivation_keepsSlots (s : State) : KeepsSlots s s.loopActivation := by
  unfold State.loopActivation
  split
  · dsimp only
    split
    · exact setLoop_keepsSlots s _
    · exact (setLoop_keepsSlots s _).trans (record_keepsSlots _ _)
  · exact (recomputeCut_onlyTrips s).keepsSlots
  · exact .refl s

theorem claimSent_keepsSlots (s : State) (x : Sending) : KeepsSlots s (s.claimSent x) := by
  unfold State.claimSent
  split
  · exact setLoop_keepsSlots s _
  · exact .refl s

/-! ## Trip Dispatcher -/

theorem resendExpiry_keepsSlots (s : State) (b : Nat) : KeepsSlots s (s.resendExpiry b) := by
  unfold State.resendExpiry
  split
  · split
    · exact ((updateOrder_onlyTrips s b _).trans (attemptSend_onlyTrips _ b)).keepsSlots
    · exact .refl s
  · exact .refl s

theorem failureExpiry_keepsSlots (s : State) (b : Nat) : KeepsSlots s (s.failureExpiry b) := by
  unfold State.failureExpiry State.failOrder State.failWith
  split
  next o _ =>
    split
    · exact ((markFailed_onlyTrips s o _).trans (escalate_onlyTrips ask_onlyTrips _ _)).keepsSlots
    · exact .refl s
  · exact .refl s

theorem pulseExpiry_keepsSlots (s : State) (l : Nat) : KeepsSlots s (s.pulseExpiry l) := by
  unfold State.pulseExpiry
  split <;> exact .refl s

theorem removeCause_keepsSlots (i : Nat) (s : State) (b : Nat) : KeepsSlots s (State.removeCause i s b) := by
  unfold State.removeCause
  split
  · exact .refl s
  · dsimp only
    split
    · exact .refl s
    · split
      · obtain ⟨-, -, pool, -⟩ :=
          reconsiderLine_same ((s.setOrders (s.trip.orders.filter fun o => o.breaker ≠ b)).withdrawTrip b) b
        exact .of_pool pool
      · exact .refl s

theorem removeSection_keepsSlots (s : State) (i : Nat) : KeepsSlots s (s.removeSection i) :=
  keeps_foldl KeepsSlots.refl KeepsSlots.trans (removeCause_keepsSlots i) _ s

/-! ## Section Evaluator -/

theorem setSection_keepsSlots (s : State) (i : Nat) (r : SectionRec) : KeepsSlots s (s.setSection i r) := .refl _

theorem persistenceExpiry_keepsSlots (s : State) (i : Nat) : KeepsSlots s (s.persistenceExpiry i) := by
  unfold State.persistenceExpiry
  dsimp only
  split
  · split
    · exact setSection_keepsSlots s i _
    · exact (setSection_keepsSlots s i _).trans (record_keepsSlots _ _)
  · exact .refl s

theorem onSection_keepsSlots {s : State} {i : Nat} {x : State × Result} (h : KeepsSlots s x.1) :
    KeepsSlots s (s.onSection i x).1 := by
  unfold State.onSection
  split
  · exact .refl s
  · exact h

theorem setBlockOn_keepsSlots (s : State) (i : Nat) : KeepsSlots s (s.setBlockOn i).1 := by
  refine onSection_keepsSlots ?_
  dsimp only
  split
  · exact setSection_keepsSlots s i _
  · exact (setSection_keepsSlots s i _).trans (record_keepsSlots _ _)

theorem setBlockOff_keepsSlots (s : State) (i : Nat) : KeepsSlots s (s.setBlockOff i).1 := by
  have flagged : ∀ r : SectionRec, KeepsSlots s
      (if (s.sectionRec i).block then (s.setSection i r).record (flagRecord .blockChange i false) else s.setSection i r) := fun r => by
    split
    · exact (setSection_keepsSlots s i r).trans (record_keepsSlots _ _)
    · exact setSection_keepsSlots s i r
  refine onSection_keepsSlots ?_
  dsimp only
  split
  · exact (flagged _).trans (evaluate_onlyTrips _ i _).keepsSlots
  · exact flagged _

theorem setMaintenance_keepsSlots (s : State) (i : Nat) (on : Bool) : KeepsSlots s (s.setMaintenance i on).1 := by
  refine onSection_keepsSlots ?_
  dsimp only
  split
  · exact .refl s
  · exact ((setSection_keepsSlots s i _).trans (record_keepsSlots _ _)).trans (reportTo_onlyTrips _ i _).keepsSlots

theorem release_keepsSlots (s : State) (i : Nat) : KeepsSlots s (s.release i).1 := by
  refine onSection_keepsSlots ?_
  split
  · exact ((removeSection_keepsSlots s i).trans (setSection_keepsSlots _ i _)).trans (record_keepsSlots _ _)
  · exact .refl s

/-! ## Lens Check Engine -/

theorem completeWindow_keepsSlots (s : State) (c : Nat) : KeepsSlots s (s.completeWindow c) := by
  have hands : ∀ gain standing, KeepsSlots s (s.handOver c gain standing) := fun gain standing => by
    unfold State.handOver
    split <;> exact .refl s
  unfold State.completeWindow
  split
  · exact .refl s
  · exact (hands _ _).trans (endTest_makes _ c _ _).keepsSlots

theorem countFlagged_keepsSlots (s : State) (c n p : Nat) : KeepsSlots s (s.countFlagged c n p) := by
  have measured : KeepsSlots s (s.setLens { s.lens with state := .measuring, startWait := .stopped, count := n, peak := p }) :=
    .refl _
  unfold State.countFlagged
  dsimp only
  split
  · exact measured.trans (completeWindow_keepsSlots _ c)
  · exact measured

theorem startWaitExpiry_keepsSlots (s : State) : KeepsSlots s s.startWaitExpiry := by
  unfold State.startWaitExpiry
  split
  · exact (endTest_makes s _ _ _).keepsSlots
  · exact .refl s

theorem testWindowComplete_keepsSlots (s : State) : KeepsSlots s s.testWindowComplete := by
  unfold State.testWindowComplete
  split
  · split
    · exact countFlagged_keepsSlots s _ _ _
    · exact .refl s
  · exact .refl s

theorem lensNodeStale_keepsSlots (s : State) (n : Nat) : KeepsSlots s (s.lensNodeStale n) := by
  unfold State.lensNodeStale
  split
  · exact .refl s
  · exact .refl s
  · split
    · exact (endTest_makes s _ _ _).keepsSlots
    · exact .refl s

theorem offerTest_keepsSlots (s : State) (f : TestFrame) : KeepsSlots s (s.offerTest f) := by
  unfold State.offerTest
  split
  · exact pushControl_keepsSlots s _
  · exact .refl s

theorem testLens_keepsSlots (s : State) (c : Nat) : KeepsSlots s (s.testLens c).1 := by
  unfold State.testLens
  split
  · exact (testBegun_only s c).keepsSlots.trans (offerTest_keepsSlots _ ((s.testBegun c).testFrame c true))
  · exact .refl s

/-! ## Node Admission -/

theorem tellStale_keepsSlots (n : Nat) (s : State) : KeepsSlots s (State.tellStale n s) := by
  rw [tellStale_eq]
  exact (loseData_reports n s).only.keepsSlots.trans (lensNodeStale_keepsSlots _ n)

theorem becomeLive_keepsSlots (s : State) (n : Nat) (r : NodeRec) (seq : Byte) : KeepsSlots s (s.becomeLive n r seq) :=
  (record_keepsSlots s _).trans (becomeLive_makes s n r seq).keepsSlots

theorem stayLive_keepsSlots (s : State) (n : Nat) (seq : Byte) (d : Nat) : KeepsSlots s (s.stayLive n seq d) := by
  unfold State.stayLive
  dsimp only
  split
  · exact record_keepsSlots (s.setNode n _) _
  · exact .refl s

theorem nodeFrame_keepsSlots (s : State) (k : NodeKind) (source seq : Byte) (p : List Byte) :
    KeepsSlots s (s.nodeFrame k source seq p) := by
  unfold State.nodeFrame
  split
  · exact .refl s
  · split
    · exact .refl s
    · split
      · exact .refl s
      · unfold State.acceptFrame
        split
        · dsimp only
          split
          · exact .refl s
          · exact (stayLive_keepsSlots s _ seq _).trans (deliver_makes _ _ _ _).keepsSlots
        · exact (becomeLive_keepsSlots s _ _ seq).trans (deliver_makes _ _ _ _).keepsSlots

theorem inFrame_keepsSlots (s : State) (k : NodeKind) (source seq : Byte) (p : List Byte) (brings : Nat → Nat → Contents → Bool) :
    KeepsSlots s (s.inFrame k source seq p brings) := by
  rcases inFrame_cases s k source seq p brings with h | h <;> rw [h]
  · exact nodeFrame_keepsSlots s k source seq p
  · exact .refl s

theorem staleExpiry_keepsSlots (s : State) (n : Nat) : KeepsSlots s (s.staleExpiry n) := by
  unfold State.staleExpiry
  split
  · split
    · have staled : KeepsSlots s (s.staling n) := record_keepsSlots (s.setNode n _) _
      obtain ⟨u, before, after⟩ := tellNeighbours_recut (State.tellStale n) (s.staling n)
      exact ((staled.trans before.only.keepsSlots).trans (tellStale_keepsSlots n u)).trans after.only.keepsSlots
    · exact .refl s
  · exact .refl s

/-! ## Management Agent -/

theorem respond_keepsSlots (s : State) (r : Response) : KeepsSlots s (s.respond r) := by
  unfold State.respond
  split
  · exact pushRoutine_keepsSlots s r
  · exact .refl s

/-- READ_EVENTS is the one request that reaches into the pool (R171, R184). -/
theorem serveReadEvents_keepsSlots (ps : List Byte) (s : State) : KeepsSlots s (serveReadEvents ps s).1 := by
  unfold serveReadEvents
  repeat' split
  · exact remove_slots s.pool _ _
  all_goals exact .refl s

theorem serveWriteShadow_keepsSlots (ps : List Byte) (s : State) : KeepsSlots s (serveWriteShadow ps s).1 := by
  unfold serveWriteShadow
  repeat' split
  all_goals exact .refl s

theorem serveDiscardShadow_keepsSlots (ps : List Byte) (s : State) : KeepsSlots s (serveDiscardShadow ps s).1 := by
  unfold serveDiscardShadow
  repeat' split
  all_goals exact .refl s

theorem serveActivate_keepsSlots (source tag : Byte) (ps : List Byte) (s : State) :
    KeepsSlots s (serveActivate source tag ps s).1 := by
  unfold serveActivate
  repeat' split
  all_goals exact .refl s

theorem serveRelease_keepsSlots (ps : List Byte) (s : State) : KeepsSlots s (serveRelease ps s).1 := by
  unfold serveRelease
  split
  · exact release_keepsSlots s _
  · exact .refl s

theorem serveSetMaintenance_keepsSlots (ps : List Byte) (s : State) : KeepsSlots s (serveSetMaintenance ps s).1 := by
  unfold serveSetMaintenance
  split
  · split
    · exact setMaintenance_keepsSlots s _ _
    · exact .refl s
  · exact .refl s

theorem serveSetBlock_keepsSlots (ps : List Byte) (s : State) : KeepsSlots s (serveSetBlock ps s).1 := by
  unfold serveSetBlock
  split
  · split
    · exact setBlockOn_keepsSlots s _
    · exact setBlockOff_keepsSlots s _
    · exact .refl s
  · exact .refl s

theorem serveTestLens_keepsSlots (ps : List Byte) (s : State) : KeepsSlots s (serveTestLens ps s).1 := by
  unfold serveTestLens
  split
  · exact testLens_keepsSlots s _
  · exact .refl s

theorem serveReclaim_keepsSlots (ps : List Byte) (s : State) : KeepsSlots s (serveReclaim ps s).1 := by
  unfold serveReclaim
  split
  · exact (enterClaiming_keepsSlots s).trans (settleRoom_keepsSlots _)
  · exact .refl s

theorem serveSoftReset_keepsSlots (ps : List Byte) (s : State) : KeepsSlots s (serveSoftReset ps s).1 := by
  unfold serveSoftReset
  split <;> exact .refl s

theorem serveCode_keepsSlots (code source tag : Byte) (ps : List Byte) (s : State) :
    KeepsSlots s (serveCode code source tag ps s).1 := by
  have reading := serveReading_same code source tag ps s
  unfold serveCode at reading ⊢
  split
  case h_2 => exact serveReadEvents_keepsSlots ps s
  case h_6 => exact serveWriteShadow_keepsSlots ps s
  case h_7 => exact serveDiscardShadow_keepsSlots ps s
  case h_8 => exact serveActivate_keepsSlots source tag ps s
  case h_9 => exact serveRelease_keepsSlots ps s
  case h_10 => exact serveSetMaintenance_keepsSlots ps s
  case h_11 => exact serveSetBlock_keepsSlots ps s
  case h_12 => exact serveTestLens_keepsSlots ps s
  case h_13 => exact serveReclaim_keepsSlots ps s
  case h_14 => exact serveSoftReset_keepsSlots ps s
  all_goals
    rename_i e
    rw [e] at reading
    rw [reading (by simp)]
    exact .refl s

theorem takeRequest_keepsSlots (source tag code : Byte) (ps : List Byte) (s : State) :
    KeepsSlots s (s.takeRequest source tag code (serveCode code source tag ps)) := by
  have serves := serveCode_keepsSlots code source tag ps s
  rcases takeRequest_cases s source tag code (serveCode code source tag ps) with e | ⟨r, e⟩ | e <;> rw [e]
  · exact .refl s
  · exact serves.trans (respond_keepsSlots _ r)
  · exact serves

/-- A frame of the loop keeps the slots (R3, R4). -/
theorem receive_keepsSlots (s : State) (bytes : List Byte) : KeepsSlots s (s.receive bytes) := by
  unfold State.receive State.goodFrame
  split
  · split
    · split
      · exact supervisionReturns_keepsSlots s
      · exact beaconReturns_keepsSlots s
      · exact claimReturns_keepsSlots s _ _
      · exact .refl s
    · split
      · exact .refl s
      · split
        · exact nodeFrame_keepsSlots s _ _ _ _
        · exact nodeFrame_keepsSlots s _ _ _ _
        · exact nodeFrame_keepsSlots s _ _ _ _
        · unfold State.requestFrame
          split
          · exact takeRequest_keepsSlots _ _ _ _ s
          · exact .refl s
        · exact .refl s
  · exact .refl s

/-- An activation records what it activates, and then its claim result and its trips (R19, R102, R161). -/
theorem swap_keepsSlots (s : State) : KeepsSlots s s.swap := by
  obtain ⟨-, -, activated⟩ := newTables_values s
  have carried : KeepsSlots s s.newTables := by
    unfold KeepsSlots
    rw [activated]
    exact take_slots _ _ _
  have recomputed : ∀ u : State, KeepsSlots u u.recomputeSections := fun u => by
    obtain ⟨-, -, -, -, viewed, -⟩ := refreshView_same u
    exact (KeepsSlots.of_pool viewed).trans
      (keeps_foldl KeepsSlots.refl KeepsSlots.trans (fun v i => (recompute_onlyTrips v i).keepsSlots) _ _)
  have written : ∀ u : State, KeepsSlots u u.beginStoreWrite := fun u => .refl u
  rw [swap_eq]
  exact ((carried.trans (loopActivation_keepsSlots _)).trans (recomputed _)).trans (written _)

theorem validationCompletes_keepsSlots (s : State) : KeepsSlots s s.validationCompletes := by
  have ends : ∀ (u : State) (r : Response), KeepsSlots u (u.endValidation.respond r) := fun u r =>
    respond_keepsSlots u.endValidation r
  unfold State.validationCompletes
  split
  · split
    · exact ends s _
    · split
      · exact ends s _
      · exact (swap_keepsSlots s).trans (ends _ _)
  · exact .refl s

/-! ## Setting Store, Supply Monitor, resets and the Timebase -/

theorem storeComplete_keepsSlots (s : State) (a : Bool) : KeepsSlots s (s.storeComplete a) := by
  unfold State.storeComplete
  split
  · exact record_keepsSlots _ _
  · exact .refl s

theorem warningFall_keepsSlots (s : State) : KeepsSlots s s.warningFall := by
  unfold State.warningFall
  split
  · exact .refl s
  · exact record_keepsSlots _ _

theorem warningRise_keepsSlots (s : State) : KeepsSlots s s.warningRise := by
  unfold State.warningRise
  split
  · exact record_keepsSlots _ _
  · exact .refl s

/-- A soft reset keeps the records and makes its own (R177, R185). -/
theorem performSoftReset_keepsSlots (s : State) : KeepsSlots s s.performSoftReset := by
  obtain ⟨-, -, -, -, -, pool⟩ := softBase_values s
  have base : KeepsSlots s s.softBase := by
    unfold KeepsSlots
    rw [pool]
    exact take_slots _ _ _
  rw [performSoftReset_eq]
  exact base.trans (enterClaiming_keepsSlots _)

theorem sendingCompletes_keepsSlots (s : State) : KeepsSlots s s.sendingCompletes := by
  unfold State.sendingCompletes
  split
  · exact .refl s
  · split
    · exact performSoftReset_keepsSlots s
    · exact ((claimSent_keepsSlots s _).trans (startNext_keepsSlots _)).trans (settleRoom_keepsSlots _)

theorem beginHardReset_keepsSlots (s : State) (d : Bool) : KeepsSlots s (s.beginHardReset d) := by
  unfold State.beginHardReset
  split <;> exact .refl s

theorem loseRetention_keepsSlots (s : State) : KeepsSlots s s.loseRetention := beginHardReset_keepsSlots s true

/-- The end of a hard reset takes its records into an empty pool, all of whose slots are free (R180, R185). -/
theorem hardPool_slots (h : HardReset) (mv : Nat) : (hardPool h mv).slots.Perm (List.range Config.slotCount) := by
  have first := take_slots .empty 0 (resetRecord h.cause)
  unfold hardPool
  split
  · exact (take_slots _ 0 _).trans first
  · exact first

theorem endHardReset_partitioned {s : State} (mv : Nat) (i : PoolPartitioned s) : PoolPartitioned (s.endHardReset mv) := by
  unfold State.endHardReset
  split
  next h _ =>
    split
    · obtain ⟨-, -, -, -, -, pool, -⟩ := hardBase_values s h mv
      have base : PoolPartitioned (s.hardBase h mv) := by
        unfold PoolPartitioned
        rw [pool]
        exact hardPool_slots h mv
      rw [finishHardReset_eq]
      exact (enterClaiming_keepsSlots _).partitioned base
    · exact i
  · exact i

theorem tick_keepsSlots (s : State) : KeepsSlots s s.tick := by
  unfold State.tick
  split <;> exact .refl s

/-! ## One step -/

/-- Every command but the end of a hard reset keeps the slots. -/
theorem exec_keepsSlots {c : Instr} {s t : State} (run : exec c s = .next t) (other : ∀ mv, c ≠ .hardResetEnd mv) :
    KeepsSlots s t := by
  have outside : ∀ {f : State → State}, KeepsSlots s (f s) → KeepsSlots s (s.outsideReset f) := fun h => by
    unfold State.outsideReset
    split
    · exact .refl s
    · exact h
  have requests : ∀ {source tag code : Byte} {ps : List Byte}, KeepsSlots s
      (s.outsideReset fun s => s.takeRequest source tag code (serveCode code source tag ps)) :=
    outside (takeRequest_keepsSlots _ _ _ _ s)
  cases c <;> cases run
  case frameArrival bytes => exact outside (receive_keepsSlots s bytes)
  case supervision => exact outside (supervisionReturns_keepsSlots s)
  case beacon => exact outside (beaconReturns_keepsSlots s)
  case claim seq payload => exact outside (claimReturns_keepsSlots s seq payload)
  case claimTimerExpiry => exact outside (claimExpiry_keepsSlots s)
  case supervisionSendTimerExpiry => exact outside (supervisionSendExpiry_keepsSlots s)
  case supervisionTimerExpiry => exact outside (supervisionExpiry_keepsSlots s)
  case beaconTimerExpiry => exact outside (beaconExpiry_keepsSlots s)
  case sendingComplete => exact outside (sendingCompletes_keepsSlots s)
  case claimQueuedAtRoom => exact outside (queueWaitingClaim_keepsSlots s)
  case heldTestFrameQueued => exact outside (.of_pool (queueHeldTests_onlyQueues s).pool)
  case heldResponseQueued => exact outside (offerHeldResponses_keepsSlots s _)
  case lightSample source seq payload => exact outside (nodeFrame_keepsSlots s .light source seq payload)
  case currentSample source seq payload => exact outside (nodeFrame_keepsSlots s .current source seq payload)
  case position source seq payload => exact outside (nodeFrame_keepsSlots s .breaker source seq payload)
  case staleTimerExpiry n => exact outside (staleExpiry_keepsSlots s n)
  case flickerWindowClose e => exact outside (inFrame_keepsSlots s _ _ _ _ _)
  case stretchExpiry e => exact outside (inFrame_keepsSlots s _ _ _ _ _)
  case persistenceTimerExpiry j => exact outside (persistenceExpiry_keepsSlots s j)
  case resendTimerExpiry b => exact outside (resendExpiry_keepsSlots s b)
  case failureTimerExpiry b => exact outside (failureExpiry_keepsSlots s b)
  case minimumPulseTimerExpiry l => exact outside (pulseExpiry_keepsSlots s l)
  case startWaitTimerExpiry => exact outside (startWaitExpiry_keepsSlots s)
  case testWindowComplete => exact outside (testWindowComplete_keepsSlots s)
  case validationComplete => exact outside (validationCompletes_keepsSlots s)
  case storeWriteComplete agrees => exact outside (storeComplete_keepsSlots s agrees)
  case softResetTakesEffect =>
    refine outside ?_
    split
    · exact performSoftReset_keepsSlots s
    · exact .refl s
  case supplyWarningFall => exact outside (warningFall_keepsSlots s)
  case supplyWarningRise => exact outside (warningRise_keepsSlots s)
  case supplyDipReset => exact beginHardReset_keepsSlots s true
  case resetnLow => exact beginHardReset_keepsSlots s false
  case hardResetEnd mv => exact absurd rfl (other mv)
  case supplyBelowRetention => exact loseRetention_keepsSlots s
  case setBlockOn source tag sect => exact requests (code := 0x22) (ps := [sect, 1])
  case setBlockOff source tag sect => exact requests (code := 0x22) (ps := [sect, 0])
  all_goals exact requests

theorem exec_partitioned {c : Instr} {s t : State} (run : exec c s = .next t) (i : PoolPartitioned s) : PoolPartitioned t := by
  by_cases ends : ∃ mv, c = .hardResetEnd mv
  · obtain ⟨mv, rfl⟩ := ends
    cases run
    exact endHardReset_partitioned mv i
  · exact (exec_keepsSlots run (not_exists.1 ends)).partitioned i

/-- Settles O50: every command moves slots between the lists or, at the end of a hard reset, begins with all of them free; and no record
is made as time passes. -/
theorem stepKeepsPoolPartitioned : Obligations.stepKeepsPoolPartitioned := by
  intro s t i run
  unfold Machine.step at run
  split at run
  · exact exec_partitioned (s := { s with pending := _ }) run i
  · split at run
    · exact exec_partitioned run i
    · cases run
      exact (tick_keepsSlots s).partitioned i

end Sys2Proof.Machine
end

section
/-! SUPPORT. The records that the Event Pool is handed (R181 to R183), each way that it takes one an equation of its own, and the bytes of a
record image (R194). -/

namespace Sys2Proof.Machine

/-! ## Taking a record (R181 to R183) -/

section
variable {p : EventPool} {time : Word32} {b : RecordBody}

/-- A record is placed in the slot at the head of the free list, at the tail of the TRIP chain (R182). -/
theorem take_trip_free {n : Nat} {rest : List Nat} (trip : b.category = .trip) (free : p.free = n :: rest) :
    p.take time b = { p with
      nextSeq := p.nextSeq + 1
      free := rest
      tripChain := p.tripChain ++ [⟨n, ⟨p.nextSeq, time, b⟩⟩] } := by
  unfold EventPool.take
  rw [trip, free]

/-- A record is placed in the slot at the head of the free list, at the tail of the GENERAL chain (R182). -/
theorem take_general_free {n : Nat} {rest : List Nat} (general : b.category ≠ .trip) (free : p.free = n :: rest) :
    p.take time b = { p with
      nextSeq := p.nextSeq + 1
      free := rest
      generalChain := p.generalChain ++ [⟨n, ⟨p.nextSeq, time, b⟩⟩] } := by
  unfold EventPool.take
  rw [free]
  cases category : b.category with
  | trip => exact absurd category general
  | alarm => rfl
  | notice => rfl

/-- Without a free slot a TRIP record takes the place of the oldest GENERAL record (R183). -/
theorem take_trip_displaces {oldest : Slot} {rest : List Slot} (trip : b.category = .trip) (full : p.free = [])
    (general : p.generalChain = oldest :: rest) :
    p.take time b = { p with
      nextSeq := p.nextSeq + 1
      generalChain := rest
      generalTruncated := true
      tripChain := p.tripChain ++ [⟨oldest.number, ⟨p.nextSeq, time, b⟩⟩] } := by
  unfold EventPool.take
  rw [trip, full, general]

/-- Without a free slot and without a GENERAL record a TRIP record is dropped (R183). -/
theorem take_trip_dropped (trip : b.category = .trip) (full : p.free = []) (none : p.generalChain = []) :
    p.take time b = { p with nextSeq := p.nextSeq + 1, tripTruncated := true } := by
  unfold EventPool.take
  rw [trip, full, none]

/-- Without a free slot a GENERAL record is dropped (R183). -/
theorem take_general_dropped (general : b.category ≠ .trip) (full : p.free = []) :
    p.take time b = { p with nextSeq := p.nextSeq + 1, generalTruncated := true } := by
  unfold EventPool.take
  rw [full]
  cases category : b.category with
  | trip => exact absurd category general
  | alarm => rfl
  | notice => rfl

/-- Every record takes the next sequence number, kept or dropped (R181). -/
theorem take_nextSeq (p : EventPool) (time : Word32) (b : RecordBody) : (p.take time b).nextSeq = p.nextSeq + 1 := by
  unfold EventPool.take
  dsimp only
  split <;> rfl

end

/-! ## Record images (R194) -/

/-- Byte 7 of a record image from the category and from which of the optional fields follow. -/
def marksByte (c : Category) (sect channel point breaker node value : Bool) : Byte :=
  byte (c.code + (if sect then 4 else 0) + (if channel then 8 else 0) + (if point then 16 else 0) + (if breaker then 32 else 0) +
    (if node then 64 else 0) + if value then 128 else 0)

theorem marksByte_bits (c : Category) : ∀ sect channel point breaker node value : Bool,
    let marks := marksByte c sect channel point breaker node value
    (marks.extractLsb' 0 2).toNat = c.code ∧ marks.getLsbD 2 = sect ∧ marks.getLsbD 3 = channel ∧ marks.getLsbD 4 = point ∧
      marks.getLsbD 5 = breaker ∧ marks.getLsbD 6 = node ∧ marks.getLsbD 7 = value := by
  cases c <;> decide

theorem optionalByte_length_le (o : Option Nat) : (optionalByte o).length ≤ 1 := by
  cases o
  · exact Nat.zero_le 1
  · exact le_refl 1

/-- The bytes of the value field of a record image, which is there or not. -/
def valueBytes : Option Word32 → List Byte
  | some v => word32Bytes v
  | none => []

theorem valueBytes_length_le (o : Option Word32) : (valueBytes o).length ≤ 4 := by
  cases o
  · exact Nat.zero_le 4
  · exact le_refl 4

/-- A record image: its fixed part, and then the optional fields. -/
theorem image_eq (r : Record) : r.image = wordBytes r.seq ++ word32Bytes r.time ++ [r.body.kind.code,
      marksByte r.body.category r.body.sect.isSome r.body.channel.isSome r.body.point.isSome r.body.breaker.isSome
        r.body.node.isSome r.body.value.isSome] ++
    optionalByte r.body.sect ++ optionalByte r.body.channel ++ optionalByte r.body.point ++ optionalByte r.body.breaker ++
    optionalByte r.body.node ++ valueBytes r.body.value := by
  unfold Record.image
  cases r.body.value <;> rfl

/-- The fixed part is 8 bytes long, five fields have a byte each at most, and the value has four. -/
theorem image_length (r : Record) : 8 ≤ r.image.length ∧ r.image.length ≤ 17 := by
  have sect := optionalByte_length_le r.body.sect
  have channel := optionalByte_length_le r.body.channel
  have point := optionalByte_length_le r.body.point
  have breaker := optionalByte_length_le r.body.breaker
  have node := optionalByte_length_le r.body.node
  have value := valueBytes_length_le r.body.value
  rw [image_eq]
  simp only [List.length_append, wordBytes, word32Bytes, List.length_cons, List.length_nil]
  omega

/-- The low two bytes of a value of two parts are the parts, and nothing stands above them (R194). -/
theorem value2_bytes (v1 v0 : Byte) : (value2 v1.toNat v0.toNat).extractLsb' 8 8 = v1 ∧
    (value2 v1.toNat v0.toNat).extractLsb' 0 8 = v0 ∧ (value2 v1.toNat v0.toNat).extractLsb' 16 16 = 0 := by
  have small := v1.isLt
  have small0 := v0.isLt
  have number : (value2 v1.toNat v0.toNat).toNat = v1.toNat * 256 + v0.toNat := by
    rw [value2, BitVec.toNat_ofNat]
    omega
  refine ⟨BitVec.eq_of_toNat_eq ?_, BitVec.eq_of_toNat_eq ?_, BitVec.eq_of_toNat_eq ?_⟩ <;>
    rw [BitVec.extractLsb'_toNat, number, Nat.shiftRight_eq_div_pow]
  · omega
  · omega
  · show _ = 0
    omega

/-! ## Every record -/

/-- Settles O43: a record is placed, displaces another or is dropped by an equation each, and the image by its fixed part and its fields. -/
theorem recordsTaken : Obligations.recordsTaken := by
  refine ⟨fun p time b => ?_, fun r => ?_, value2_bytes⟩
  · refine ⟨take_nextSeq p time b, fun n rest free => ?_, fun full => ?_⟩
    · by_cases trip : b.category = .trip
      · rw [take_trip_free trip free]
        exact ⟨rfl, rfl, rfl, fun _ => ⟨rfl, rfl⟩, fun general => absurd trip general⟩
      · rw [take_general_free trip free]
        exact ⟨rfl, rfl, rfl, fun category => absurd category trip, fun _ => ⟨rfl, rfl⟩⟩
    · by_cases trip : b.category = .trip
      · cases general : p.generalChain with
        | nil =>
          rw [take_trip_dropped trip full general]
          exact ⟨full, fun other => absurd trip other, fun _ =>
            ⟨fun _ _ nonempty => absurd nonempty (List.cons_ne_nil _ _).symm, fun _ => ⟨rfl, rfl, general, rfl⟩⟩⟩
        | cons oldest rest =>
          rw [take_trip_displaces trip full general]
          refine ⟨full, fun other => absurd trip other, fun _ =>
            ⟨fun x later same => ?_, fun empty => absurd empty (List.cons_ne_nil _ _)⟩⟩
          cases same
          exact ⟨rfl, rfl, rfl, rfl⟩
      · rw [take_general_dropped trip full]
        exact ⟨full, fun _ => ⟨rfl, rfl, rfl, rfl⟩, fun category => absurd category trip⟩
  · intro kind category optional big4
    have fields : optional = optionalByte := by
      funext field
      cases field <;> rfl
    obtain ⟨least, most⟩ := image_length r
    refine ⟨least, most, _, ?_, marksByte_bits r.body.category _ _ _ _ _ _⟩
    rw [fields, image_eq]
    cases r.body.value <;> rfl

end Sys2Proof.Machine
end

section
/-! SUPPORT. SYSOK (R191), the end of a store write (R188) and the crossings of the warning levels (R189). -/

namespace Sys2Proof.Machine

open Sys2Proof.Safety

/-! ## SYSOK (R191) -/

/-- The entries that the computed flag examines are the in-use entries of the node table. -/
theorem allNodesLive_iff (s : State) : s.allNodesLive = true ↔
    ∀ i, i < 48 → s.tables.nodeUsed i = true → s.nodeLive i = true := by
  have entry : ∀ i, (!s.tables.nodeUsed i || s.nodeLive i) = true ↔ (s.tables.nodeUsed i = true → s.nodeLive i = true) := fun i => by
    cases s.tables.nodeUsed i <;> simp
  simp only [State.allNodesLive, List.all_eq_true, List.mem_range]
  exact forall₂_congr fun i _ => entry i

/-- The section records are those at the indices 0 to 15. -/
theorem sectionRec_mem_iff (s : State) (r : SectionRec) : r ∈ s.sections.records.toList ↔ ∃ i, i < 16 ∧ s.sectionRec i = r := by
  have record : ∀ i (known : i < Config.sectionCount), s.sectionRec i = s.sections.records[i] := fun i known => by
    unfold State.sectionRec
    rw [Vector.getElem?_eq_getElem known, Option.getD_some]
  rw [Vector.mem_toList_iff, Vector.mem_iff_getElem]
  exact exists_congr fun i => ⟨fun ⟨known, holds⟩ => ⟨known, (record i known).trans holds⟩,
    fun ⟨known, holds⟩ => ⟨known, (record i known).symm.trans holds⟩⟩

theorem anyBlocked_eq_false_iff (s : State) : s.anyBlocked = false ↔ ∀ i, i < 16 → (s.sectionRec i).state ≠ .blocked := by
  simp only [State.anyBlocked, List.any_eq_false, decide_eq_true_eq]
  constructor
  · exact fun none i known => none _ ((sectionRec_mem_iff s _).2 ⟨i, known, rfl⟩)
  · intro none r member
    obtain ⟨i, known, rfl⟩ := (sectionRec_mem_iff s r).1 member
    exact none i known

/-- Settles O48: SYSOK is a conjunction, and each of its two computed conditions is one over the entries. -/
theorem sysokConditions : Obligations.sysokConditions := by
  intro s
  rw [← allNodesLive_iff, ← anyBlocked_eq_false_iff]
  simp only [State.sysok, Bool.and_eq_true, decide_eq_true_eq, Bool.not_eq_true', and_assoc]

/-! ## Store writes and the warning levels (R188, R189) -/

section
variable {s : State} (up : Up s)
include up

theorem exec_storeWriteComplete (agrees : Bool) (writing : s.store.state = .writing) :
    exec (.storeWriteComplete agrees) s = .next (({ s with
      store := ⟨if agrees then .valid else .failed, agrees, s.store.image⟩ } : State).record (storeRecord agrees)) := by
  show Host.Outcome.next (s.outsideReset fun s => s.storeComplete agrees) = _
  rw [outsideReset_up up, State.storeComplete, if_pos writing]

theorem exec_supplyWarningFall : exec .supplyWarningFall s = .next s.warningFall :=
  congrArg Host.Outcome.next (outsideReset_up up State.warningFall)

theorem exec_supplyWarningRise : exec .supplyWarningRise s = .next s.warningRise :=
  congrArg Host.Outcome.next (outsideReset_up up State.warningRise)

end

/-- A supply with its marker clear falls below the lower level, and does not rise above the upper one. -/
theorem warnings_clear {s : State} (clear : s.supply.low = false) :
    s.warningFall = ({ s with supply := { s.supply with low := true } } : State).record supplyLowRecord ∧ s.warningRise = s := by
  rw [State.warningFall, State.warningRise, clear]
  exact ⟨rfl, rfl⟩

/-- A supply with its marker set rises above the upper level, and does not fall below the lower one. -/
theorem warnings_low {s : State} (low : s.supply.low = true) :
    s.warningRise = ({ s with supply := { s.supply with low := false } } : State).record supplyOkRecord ∧ s.warningFall = s := by
  rw [State.warningFall, State.warningRise, low]
  exact ⟨rfl, rfl⟩

/-- Settles O44: the completion for each result, and each crossing by the marker. -/
theorem storeAndWarnings : Obligations.storeAndWarnings := by
  intro s up
  rw [exec_supplyWarningFall up, exec_supplyWarningRise up]
  refine ⟨fun writing => ⟨exec_storeWriteComplete up true writing, exec_storeWriteComplete up false writing⟩,
    fun clear => ?_, fun low => ?_⟩
  · obtain ⟨falls, stays⟩ := warnings_clear clear
    rw [falls, stays]
    exact ⟨rfl, rfl⟩
  · obtain ⟨rises, stays⟩ := warnings_low low
    rw [rises, stays]
    exact ⟨rfl, rfl⟩

end Sys2Proof.Machine
end

section
/-! SUPPORT. The Timebase (R190, log entry 2): which expiry is due, and what one unit of device time does to every timer. -/

namespace Sys2Proof.Machine

open Sys2Proof.Safety

/-! ## The expiry that is due -/

/-- The command of a timer that has run out. -/
inductive TimerDue (s : State) : Instr → Prop
  | claim : s.loop.claimTimer = .running 0 → TimerDue s .claimTimerExpiry
  | supervision : s.loop.supervisionTimer = .running 0 → TimerDue s .supervisionTimerExpiry
  | send : s.loop.sendTimer = .running 0 → TimerDue s .supervisionSendTimerExpiry
  | beacon : s.loop.beaconTimer = .running 0 → TimerDue s .beaconTimerExpiry
  | stale {n : Nat} {r : NodeRec} : s.node n = some r → r.live = .live → r.timer = .running 0 → TimerDue s (.staleTimerExpiry n)
  | persistence {i : Nat} : i < 16 → (s.sectionRec i).persistence = .running 0 → TimerDue s (.persistenceTimerExpiry i)
  | failure {o : Order} : o ∈ s.trip.orders → o.state = .issued → o.failure = .running 0 →
    TimerDue s (.failureTimerExpiry o.breaker)
  | resend {o : Order} : o ∈ s.trip.orders → o.resend = .running 0 → TimerDue s (.resendTimerExpiry o.breaker)
  | pulse {l : Nat} : l < 4 → (s.line l).pulse = .running 0 → TimerDue s (.minimumPulseTimerExpiry l)
  | startWait : s.lens.startWait = .running 0 → TimerDue s .startWaitTimerExpiry

theorem Timer.isDue_iff (t : Timer) : t.isDue = true ↔ t = .running 0 := by
  rcases t with _ | _ | n <;> simp [Timer.isDue]

theorem firstDue_some {n : Nat} {due : Nat → Bool} {command : Nat → Instr} {c : Instr} (first : firstDue n due command = some c) :
    ∃ i, i < n ∧ due i = true ∧ command i = c := by
  obtain ⟨i, found, named⟩ := Option.map_eq_some_iff.1 first
  exact ⟨i, List.mem_range.1 (List.mem_of_find?_eq_some found), List.find?_some found, named⟩

theorem firstDue_none_iff {n : Nat} {due : Nat → Bool} {command : Nat → Instr} :
    firstDue n due command = none ↔ ∀ i, i < n → ¬due i = true := by
  simp only [firstDue, Option.map_eq_none_iff, List.find?_eq_none, List.mem_range]

theorem firstDueOrder_some {s : State} {due : Order → Bool} {command : Nat → Instr} {c : Instr}
    (first : s.firstDueOrder due command = some c) : ∃ o ∈ s.trip.orders, due o = true ∧ command o.breaker = c := by
  obtain ⟨o, found, named⟩ := Option.map_eq_some_iff.1 first
  exact ⟨o, List.mem_of_find?_eq_some found, List.find?_some found, named⟩

theorem firstDueOrder_none_iff {s : State} {due : Order → Bool} {command : Nat → Instr} :
    s.firstDueOrder due command = none ↔ ∀ o ∈ s.trip.orders, ¬due o = true := by
  simp only [State.firstDueOrder, Option.map_eq_none_iff, List.find?_eq_none]

/-- The test of the model's search for a stale timer that is due. -/
def State.staleDue (s : State) (n : Nat) : Bool :=
  match s.node n with
  | some r => r.live = .live && r.timer.isDue
  | none => false

theorem staleDue_iff (s : State) (n : Nat) :
    s.staleDue n = true ↔ ∃ r, s.node n = some r ∧ r.live = .live ∧ r.timer = .running 0 := by
  unfold State.staleDue
  cases s.node n <;> simp [Timer.isDue_iff]

/-- The expiry that is due is that of a timer that has run out. -/
theorem dueExpiry_timerDue {s : State} {c : Instr} (due : s.dueExpiry = some c) : TimerDue s c := by
  unfold State.dueExpiry at due
  split at due
  · cases due
  simp only [Option.or_eq_some_iff, Option.ite_none_right_eq_some, Timer.isDue_iff, Option.some.injEq] at due
  rcases due with ⟨out, rfl⟩ | ⟨-, ⟨out, rfl⟩ | ⟨-, ⟨out, rfl⟩ | ⟨-, ⟨out, rfl⟩ | ⟨-, stale | ⟨-, held | ⟨-, failed | ⟨-, resend |
    ⟨-, pulse | ⟨-, out, rfl⟩⟩⟩⟩⟩⟩⟩⟩⟩
  · exact .claim out
  · exact .supervision out
  · exact .send out
  · exact .beacon out
  · obtain ⟨n, -, out, rfl⟩ := firstDue_some stale
    obtain ⟨r, node, live, out⟩ := (staleDue_iff s n).1 out
    exact .stale node live out
  · obtain ⟨i, known, out, rfl⟩ := firstDue_some held
    exact .persistence known ((Timer.isDue_iff _).1 out)
  · obtain ⟨o, member, out, rfl⟩ := firstDueOrder_some failed
    obtain ⟨issued, out⟩ := Bool.and_eq_true_iff.1 out
    exact .failure member (of_decide_eq_true issued) ((Timer.isDue_iff _).1 out)
  · obtain ⟨o, member, out, rfl⟩ := firstDueOrder_some resend
    exact .resend member ((Timer.isDue_iff _).1 out)
  · obtain ⟨l, known, out, rfl⟩ := firstDue_some pulse
    exact .pulse known ((Timer.isDue_iff _).1 out)
  · exact .startWait out

/-- No expiry is due exactly when none of the part's timers has run out. -/
theorem dueExpiry_none_iff {s : State} (up : Up s) : s.dueExpiry = none ↔
    s.loop.claimTimer ≠ .running 0 ∧ s.loop.supervisionTimer ≠ .running 0 ∧ s.loop.sendTimer ≠ .running 0 ∧
    s.loop.beaconTimer ≠ .running 0 ∧ (∀ n r, s.node n = some r → r.live = .live → r.timer ≠ .running 0) ∧
    (∀ i, i < 16 → (s.sectionRec i).persistence ≠ .running 0) ∧
    (∀ o ∈ s.trip.orders, o.state = .issued → o.failure ≠ .running 0) ∧ (∀ o ∈ s.trip.orders, o.resend ≠ .running 0) ∧
    (∀ l, l < 4 → (s.line l).pulse ≠ .running 0) ∧ s.lens.startWait ≠ .running 0 := by
  have stale : (∀ n r, s.node n = some r → r.live = .live → r.timer ≠ .running 0) ↔ ∀ n, n < 48 → ¬s.staleDue n = true := by
    simp only [staleDue_iff]
    constructor
    · rintro none n - ⟨r, node, live, out⟩
      exact none n r node live out
    · intro none n r node live out
      by_cases known : n < 48
      · exact none n known ⟨r, node, live, out⟩
      · rw [node_beyond s known] at node
        cases node
  rw [stale, State.dueExpiry, if_neg (by simp [up])]
  simp only [Option.or_eq_none_iff, ite_eq_right_iff, reduceCtorEq, imp_false, firstDue_none_iff, firstDueOrder_none_iff,
    Timer.isDue_iff, Bool.and_eq_true, decide_eq_true_eq, not_and]
  exact Iff.rfl

/-! ## One unit of device time -/

section
variable {s : State} (up : Up s)
include up

theorem tick_node (n : Nat) : s.tick.node n = (s.node n).map fun r => { r with timer := r.timer.tick } := by
  by_cases known : n < 48
  · rw [node_ofFn (tick_nodes up) known]
  · rw [node_beyond _ known, node_beyond _ known]
    rfl

theorem tick_sectionRec (i : Nat) :
    s.tick.sectionRec i = { s.sectionRec i with persistence := (s.sectionRec i).persistence.tick } := by
  by_cases known : i < 16
  · rw [sectionRec_ofFn (tick_records up) known]
  · rw [sectionRec_outside _ known, sectionRec_outside _ known]
    rfl

theorem tick_line (l : Nat) : s.tick.line l = ⟨(s.line l).active, (s.line l).pulse.tick⟩ := by
  have lines : s.tick.trip.lines = Vector.ofFn fun i : Fin Config.lineCount => { s.line i with pulse := (s.line i).pulse.tick } := by
    unfold State.tick
    rw [if_neg (by simp [up])]
  by_cases known : l < Config.lineCount
  · rw [State.line, lines, Vector.getElem?_ofFn, dif_pos known, Option.getD_some]
  · have beyond : ∀ t : State, t.line l = .reset := fun t => by
      rw [State.line, Vector.getElem?_eq_none (by omega), Option.getD_none]
    rw [beyond, beyond]
    rfl

/-- Device time, the start wait timer, and what no block's timer touches. -/
theorem tick_timebase : s.tick.deviceTime = s.deviceTime + 1 ∧ s.tick.lens = { s.lens with startWait := s.lens.startWait.tick } ∧
    s.tick.pool = s.pool ∧ s.tick.supply = s.supply ∧ s.tick.draws = s.draws ∧ s.tick.pending = s.pending := by
  unfold State.tick
  rw [if_neg (by simp [up])]
  exact ⟨rfl, rfl, rfl, rfl, rfl, rfl⟩

end

theorem step_due {s : State} {c : Instr} (idle : s.pending = []) (due : s.dueExpiry = some c) : Machine.step s = exec c s := by
  unfold Machine.step
  rw [idle, due]

theorem step_tick {s : State} (idle : s.pending = []) (none : s.dueExpiry = none) : Machine.step s = .next s.tick := by
  unfold Machine.step
  rw [idle, none]

/-- Settles O2: the expiry named is that of a timer that has run out, and a tick is given reader by reader. -/
theorem idleStepRunsTime : Obligations.idleStepRunsTime := by
  intro s idle up ticked due
  have ticks : ticked = Timer.tick := by
    funext t
    rcases t with _ | _ | n <;> rfl
  refine ⟨fun c expires => ⟨?_, step_due idle expires⟩, ?_, fun none => ⟨s.tick, step_tick idle none, ?_⟩⟩
  · cases dueExpiry_timerDue expires with
    | claim out => exact out
    | supervision out => exact out
    | send out => exact out
    | beacon out => exact out
    | stale node live out => exact ⟨_, node, live, out⟩
    | persistence known out => exact ⟨known, out⟩
    | failure member issued out => exact ⟨_, member, rfl, issued, out⟩
    | resend member out => exact ⟨_, member, rfl, out⟩
    | pulse known out => exact ⟨known, out⟩
    | startWait out => exact out
  · rw [dueExpiry_none_iff up]
    simp only [forall_and, and_assoc]
  · obtain ⟨time, lens, pool, supply, draws, pending⟩ := tick_timebase up
    obtain ⟨channels, points, positions, channelViews, pointViews, agent, store⟩ := tick_same s
    rw [ticks]
    exact ⟨time, tick_loop up, tick_node up, tick_sectionRec up, tick_orders up, tick_line up, lens, channels, points, positions,
      channelViews, pointViews, pool, agent, store, supply, draws, (tick_hardReset up).trans up, pending.trans idle⟩

end Sys2Proof.Machine
end

section
/-! SUPPORT. The two bytes of a word, and a field of an image read back from it (R195). -/

namespace Sys2Proof.Machine

/-! ## The two bytes of a word -/

/-- A word's value is 256 times its high byte and its low byte. -/
theorem highLow_toNat (w : Word16) : 256 * (w.extractLsb' 8 8).toNat + (w.extractLsb' 0 8).toNat = w.toNat := by
  have small : w.toNat < 65536 := w.isLt
  rw [BitVec.extractLsb'_toNat, BitVec.extractLsb'_toNat, Nat.shiftRight_eq_div_pow, Nat.shiftRight_zero]
  omega

theorem word_highLow (w : Word16) : word (w.extractLsb' 8 8) (w.extractLsb' 0 8) = w :=
  BitVec.eq_of_toNat_eq ((word_toNat _ _).trans (highLow_toNat w))

/-! ## An entry is read back from its image (R195)

The bytes of an image are at fixed places, so that a one-byte field is read back by computation, a word by `word_highLow`
and the slots of a list by `ofFn_imageByte`. -/

theorem NodeEntry.ofImage_image (e : NodeEntry) : NodeEntry.ofImage e.image = e := rfl

theorem ChannelEntry.ofImage_image (e : ChannelEntry) : ChannelEntry.ofImage e.image = e := by
  simp [ChannelEntry.ofImage, ChannelEntry.image, imageWord, imageByte, wordBytes, word_highLow]

theorem PointEntry.ofImage_image (e : PointEntry) : PointEntry.ofImage e.image = e := by
  simp [PointEntry.ofImage, PointEntry.image, imageWord, imageByte, wordBytes, word_highLow]

theorem BreakerEntry.ofImage_image (e : BreakerEntry) : BreakerEntry.ofImage e.image = e := by
  simp [BreakerEntry.ofImage, BreakerEntry.image, imageWord, imageByte, wordBytes, word_highLow]

/-- The slots that stand in an image at a place are read back whole. -/
theorem ofFn_imageByte {n place : Nat} {image before after : List Byte} (slots : Vector Byte n)
    (parts : image = before ++ (slots.toList ++ after)) (starts : before.length = place) :
    Vector.ofFn (fun i : Fin n => imageByte image (place + i.val)) = slots := by
  subst parts starts
  refine Vector.ext fun i inside => ?_
  have slot : (slots.toList ++ after)[i]? = some slots[i] := by
    rw [List.getElem?_append_left (by rwa [Vector.length_toList]), Vector.getElem?_toList, Vector.getElem?_eq_getElem inside]
  rw [Vector.getElem_ofFn, imageByte, List.getD_append_right _ _ _ _ (Nat.le_add_right _ _), Nat.add_sub_cancel_left,
    List.getD_eq_getElem?_getD, slot, Option.getD_some]

theorem SectionEntry.ofImage_image (e : SectionEntry) : SectionEntry.ofImage e.image = e := by
  have boundary : Vector.ofFn (fun i : Fin 8 => imageByte e.image (4 + i.val)) = e.boundary :=
    ofFn_imageByte (before := [e.inUse, e.mode, e.fallback, e.boundaryLen]) (after := [e.confirmLen] ++ e.confirm.toList) e.boundary
      (by rw [SectionEntry.image, List.append_assoc, List.append_assoc]) rfl
  have confirmLen : imageByte e.image 12 = e.confirmLen := by simp [imageByte, SectionEntry.image]
  have confirm : Vector.ofFn (fun i : Fin 6 => imageByte e.image (13 + i.val)) = e.confirm :=
    ofFn_imageByte e.confirm (congrArg _ (List.append_nil _).symm) (by simp)
  rw [SectionEntry.ofImage, boundary, confirmLen, confirm]
  rfl

/-- Settles O35: the layouts are the images' own, an entry is read back field by field, and an image byte by byte. -/
theorem entryImagesRoundTrip : Obligations.entryImagesRoundTrip :=
  ⟨⟨fun _ => rfl, fun _ => rfl, fun _ => rfl, fun _ => rfl, fun _ => rfl⟩,
    NodeEntry.ofImage_image, ChannelEntry.ofImage_image, PointEntry.ofImage_image, BreakerEntry.ofImage_image,
    SectionEntry.ofImage_image,
    fun _ => ⟨NodeEntry.image_ofImage, ChannelEntry.image_ofImage, PointEntry.image_ofImage, BreakerEntry.image_ofImage,
      SectionEntry.image_ofImage⟩⟩

end Sys2Proof.Machine
end

section
/-! SUPPORT. The CRC bit by bit (R192), received bytes that are a frame (R1, R2), and the frames that leave (R5, R113). -/

namespace Sys2Proof.Machine

/-! ## The CRC (R192) -/

/-- The bits of a byte in the order in which they are fed into the CRC register. -/
def bitsMsbFirst (b : Byte) : List Bool :=
  [b.getLsbD 7, b.getLsbD 6, b.getLsbD 5, b.getLsbD 4, b.getLsbD 3, b.getLsbD 2, b.getLsbD 1, b.getLsbD 0]

/-- The polynomial is added exactly when the bit that leaves the register differs from the bit fed. -/
theorem crcBit_eq (r : Word16) (b : Bool) : crcBit r b = if r.getLsbD 15 = b then r <<< 1 else (r <<< 1) ^^^ 0x1021 := by
  have top : r.msb = r.getLsbD 15 := BitVec.msb_eq_getLsbD_last r
  unfold crcBit
  rw [top]
  by_cases same : r.getLsbD 15 = b
  · rw [if_pos same, same, bne_self_eq_false, if_neg Bool.false_ne_true]
  · rw [if_neg same, if_pos (bne_iff_ne.2 same)]

/-- The CRC of a list of bytes is that of their bits, fed one after the other. -/
theorem crc16_eq_foldl_bits (bytes : List Byte) : crc16 bytes = (bytes.flatMap bitsMsbFirst).foldl crcBit 0xFFFF := by
  rw [List.foldl_flatMap]
  rfl

/-- The check value of R192: the CRC of the digits 1 to 9. -/
theorem crc16_digits : crc16 [0x31, 0x32, 0x33, 0x34, 0x35, 0x36, 0x37, 0x38, 0x39] = 0x29B1 := by
  decide +kernel

/-! ## Bytes that read as a frame (R1, R2) -/

theorem length_bytes (f : Frame) : f.bytes.length = 7 + f.payload.length := by
  simp only [Frame.bytes, Frame.body, wordBytes, List.length_append, List.length_cons, List.length_nil]
  omega

/-- What the length check and the CRC check leave: five header bytes, a payload of the length given, and the CRC. -/
theorem bytes_of_frameOf {bytes : List Byte} {f : Frame} (h : frameOf bytes = some f) :
    f.bytes = bytes ∧ f.payload.length ≤ 200 := by
  unfold frameOf at h
  split at h
  · rename_i d s k q n rest
    split at h
    · rename_i checked
      obtain ⟨long, short, agrees⟩ := checked
      dsimp only at h
      split at h
      · rename_i good
        cases h
        have count : (rest.take n.toNat).length = n.toNat := by
          rw [List.length_take]
          omega
        have field : byte (rest.take n.toNat).length = n := by
          rw [count]
          exact BitVec.ofNat_toNat _ _
        have crc := beq_iff_eq.1 good
        refine ⟨?_, count.trans_le short⟩
        rw [Frame.bytes, Frame.body, field, ← crc]
        simp only [List.cons_append, List.take_append_drop]
      · cases h
    · cases h
  · cases h

/-! ## The frames that leave (R5, R113) -/

/-- A frame leaves with source 0 and the sequence number that it took (R5). -/
theorem toFrame_eq {x : TxFrame} {dest kind : Byte} {payload : List Byte} (goes : x.dest = dest) (named : x.kind.code = kind)
    (carried : x.payload = payload) (seq : Byte) :
    (⟨x, seq⟩ : Sending).toFrame = { dest := dest, source := 0, kind := kind, seq := seq, payload := payload } := by
  subst goes named carried
  rfl

/-- A TRIP frame carries its depth and its age without loss. -/
theorem tripPayload_carries (f : TripFrame) (depth : f.depth ≤ 2) (age : f.age ≤ 65535) : ∃ d high low : Byte,
    (TxFrame.trip f).payload = [f.number, d, high, low] ∧ d.toNat = f.depth ∧ 256 * high.toNat + low.toNat = f.age := by
  refine ⟨_, _, _, rfl, byte_toNat (by omega), ?_⟩
  rw [highLow_toNat, BitVec.toNat_ofNat]
  omega

/-- Settles O5: the CRC bit by bit, the round trip of `frameOf_bytes` and `bytes_of_frameOf`, and the frames sent. -/
theorem framesRoundTrip : Obligations.framesRoundTrip := by
  refine ⟨?_, fun f short => ⟨frameOf_bytes f short, length_bytes f⟩, fun _ _ => bytes_of_frameOf, ?_⟩
  · intro shift crc
    have bitwise : crcBit = shift := funext₂ crcBit_eq
    have bytewise : crc16 = crc := by
      rw [show crc = fun bytes => (bytes.flatMap bitsMsbFirst).foldl shift 0xFFFF from rfl, ← bitwise]
      exact funext crc16_eq_foldl_bits
    rw [← bytewise]
    exact ⟨crc16_digits, fun _ => rfl⟩
  · intro seq leaves
    refine ⟨fun f depth age => ?_, fun _ => toFrame_eq rfl rfl rfl seq, toFrame_eq rfl rfl rfl seq, toFrame_eq rfl rfl rfl seq,
      toFrame_eq rfl rfl rfl seq, fun r => ?_⟩
    · obtain ⟨d, high, low, carried, values⟩ := tripPayload_carries f depth age
      exact ⟨d, high, low, toFrame_eq rfl rfl carried seq, values⟩
    · refine toFrame_eq rfl rfl ?_ seq
      rw [TxFrame.payload, Response.payload]
      cases r.result <;> rfl

end Sys2Proof.Machine
end

section
/-! SUPPORT. The queue of waiting commands (log entry 2): a step takes its front, and every command answers a next state and leaves it
alone. -/

namespace Sys2Proof.Machine

/-! ## Received frames -/

theorem takeRequest_serveCode_pending (source tag code : Byte) (ps : List Byte) (s : State) :
    (s.takeRequest source tag code (serveCode code source tag ps)).pending = s.pending :=
  takeRequest_pending (serveCode_pending code source tag ps s) source tag code

theorem requestFrame_pending (s : State) (source : Byte) (payload : List Byte) :
    (s.requestFrame source payload).pending = s.pending := by
  unfold State.requestFrame
  split
  · exact takeRequest_serveCode_pending ..
  · rfl

theorem goodFrame_pending (s : State) (f : Frame) : (s.goodFrame f).pending = s.pending := by
  by_cases own : f.source = 0
  · rw [goodFrame_own own]
    split
    · exact (supervisionReturns_kept s).pending
    · exact (beaconReturns_kept s).pending
    · exact (claimReturns_kept s _ _).pending
    · rfl
  · by_cases here : f.dest = 0
    · rw [goodFrame_received own here]
      split
      · exact (nodeFrame_kept s _ _ _ _).pending
      · exact (nodeFrame_kept s _ _ _ _).pending
      · exact (nodeFrame_kept s _ _ _ _).pending
      · exact requestFrame_pending s _ _
      · rfl
    · rw [goodFrame_elsewhere own here]

theorem receive_pending (s : State) (bytes : List Byte) : (s.receive bytes).pending = s.pending := by
  unfold State.receive
  split
  · exact goodFrame_pending s _
  · rfl

/-! ## Resets -/

theorem softResetTakesEffect_pending (s : State) :
    (if s.sendingSoftReset then s.performSoftReset else s).pending = s.pending := by
  split
  · exact performSoftReset_pending s
  · rfl

theorem loseRetention_pending (s : State) : s.loseRetention.pending = s.pending := beginHardReset_pending s true

theorem endHardReset_pending (s : State) (mv : Nat) : (s.endHardReset mv).pending = s.pending := by
  unfold State.endHardReset
  split
  · split
    · exact finishHardReset_pending s _ mv
    · rfl
  · rfl

/-! ## One command -/

/-- No command faults, and none is refused. -/
theorem exec_answers (c : Instr) (s : State) : ∃ t, exec c s = .next t := by
  cases c <;> exact ⟨_, rfl⟩

theorem request_pending (source tag code : Byte) (ps : List Byte) (s : State) :
    (s.outsideReset fun s => s.takeRequest source tag code (serveCode code source tag ps)).pending = s.pending :=
  outsideReset_pending (takeRequest_serveCode_pending source tag code ps) s

theorem exec_pending {c : Instr} {s t : State} (run : exec c s = .next t) : t.pending = s.pending := by
  have outside : ∀ {f : State → State}, (∀ s, (f s).pending = s.pending) → (s.outsideReset f).pending = s.pending :=
    fun keeps => outsideReset_pending keeps s
  cases c <;> cases run
  case frameArrival bytes => exact outside (receive_pending · bytes)
  case supervision => exact outside fun s => (supervisionReturns_kept s).pending
  case beacon => exact outside fun s => (beaconReturns_kept s).pending
  case claim seq payload => exact outside fun s => (claimReturns_kept s seq payload).pending
  case claimTimerExpiry => exact outside fun s => (claimExpiry_kept s).pending
  case supervisionSendTimerExpiry => exact outside fun s => (supervisionSendExpiry_kept s).pending
  case supervisionTimerExpiry => exact outside fun s => (supervisionExpiry_kept s).pending
  case beaconTimerExpiry => exact outside fun s => (beaconExpiry_kept s).pending
  case sendingComplete => exact outside sendingCompletes_pending
  case claimQueuedAtRoom => exact outside fun s => (queueWaitingClaim_kept s).pending
  case heldTestFrameQueued => exact outside fun s => (queueHeldTests_kept s).pending
  case heldResponseQueued => exact outside fun s => (offerHeldResponses_kept s _).pending
  case lightSample source seq payload => exact outside fun s => (nodeFrame_kept s .light source seq payload).pending
  case currentSample source seq payload => exact outside fun s => (nodeFrame_kept s .current source seq payload).pending
  case position source seq payload => exact outside fun s => (nodeFrame_kept s .breaker source seq payload).pending
  case staleTimerExpiry n => exact outside fun s => (staleExpiry_kept s n).pending
  case flickerWindowClose e => exact outside fun s => (inFrame_kept s _ _ _ _ _).pending
  case stretchExpiry e => exact outside fun s => (inFrame_kept s _ _ _ _ _).pending
  case persistenceTimerExpiry i => exact outside fun s => (persistenceExpiry_kept s i).pending
  case resendTimerExpiry b => exact outside fun s => (resendExpiry_kept s b).pending
  case failureTimerExpiry b => exact outside fun s => (failureExpiry_kept s b).pending
  case minimumPulseTimerExpiry l => exact outside fun s => (pulseExpiry_kept s l).pending
  case startWaitTimerExpiry => exact outside fun s => (startWaitExpiry_kept s).pending
  case testWindowComplete => exact outside fun s => (testWindowComplete_kept s).pending
  case validationComplete => exact outside validationCompletes_pending
  case storeWriteComplete agrees => exact outside (storeComplete_pending · agrees)
  case softResetTakesEffect => exact outside softResetTakesEffect_pending
  case supplyWarningFall => exact outside warningFall_pending
  case supplyWarningRise => exact outside warningRise_pending
  case supplyDipReset => exact beginHardReset_pending s true
  case resetnLow => exact beginHardReset_pending s false
  case hardResetEnd mv => exact endHardReset_pending s mv
  case supplyBelowRetention => exact loseRetention_pending s
  case readStatus source tag ps => exact request_pending source tag 0x01 ps s
  case readEvents source tag ps => exact request_pending source tag 0x02 ps s
  case readChannel source tag ps => exact request_pending source tag 0x03 ps s
  case readOrders source tag ps => exact request_pending source tag 0x04 ps s
  case readTable source tag ps => exact request_pending source tag 0x05 ps s
  case writeShadow source tag ps => exact request_pending source tag 0x10 ps s
  case discardShadow source tag ps => exact request_pending source tag 0x11 ps s
  case activate source tag ps => exact request_pending source tag 0x12 ps s
  case release source tag ps => exact request_pending source tag 0x20 ps s
  case setMaintenance source tag ps => exact request_pending source tag 0x21 ps s
  case setBlockOn source tag sect => exact request_pending source tag 0x22 [sect, 1] s
  case setBlockOff source tag sect => exact request_pending source tag 0x22 [sect, 0] s
  case testLens source tag ps => exact request_pending source tag 0x23 ps s
  case reclaim source tag ps => exact request_pending source tag 0x30 ps s
  case softReset source tag ps => exact request_pending source tag 0x31 ps s
  case unknownRequestCode source tag code ps => exact request_pending source tag code ps s

/-! ## One step -/

theorem step_front {s : State} {c : Instr} {rest : List Instr} (front : s.pending = c :: rest) :
    Machine.step s = exec c { s with pending := rest } := by
  unfold Machine.step
  rw [front]

/-- Settles O1: a step runs the front command with the queue's rest, and the part, whatever a command makes of it, keeps its queue. -/
theorem stepTakesFrontCommand : Obligations.stepTakesFrontCommand := by
  unfold Obligations.stepTakesFrontCommand
  refine ⟨fun _ _ _ => step_front, fun c s => ?_⟩
  obtain ⟨t, run⟩ := exec_answers c s
  exact ⟨t, run, exec_pending run⟩

end Sys2Proof.Machine
end

section
/-! SUPPORT. The reset state that the model chooses (log entry 1): its records, its sections and its orders, and the invariants that hold
of it. -/

namespace Sys2Proof.Machine

open Sys2Proof.Safety

/-! ## A table of like entries read back -/

theorem join_replicate_none {α : Type} (n i : Nat) : ((Vector.replicate n (none : Option α))[i]?).join = none := by
  rw [Vector.getElem?_replicate]
  split <;> rfl

theorem getD_replicate {α : Type} (n i : Nat) (x : α) : ((Vector.replicate n x)[i]?).getD x = x := by
  rw [Vector.getElem?_replicate]
  split <;> rfl

/-! ## The empty set has no entry in use (R147) -/

theorem empty_nodeUsed (i : Nat) : Tables.empty.nodeUsed i = false :=
  congrArg (fun e => markerSet (NodeEntry.inUse e)) (getD_replicate _ i NodeEntry.empty)

theorem empty_channelUsed (i : Nat) : Tables.empty.channelUsed i = false :=
  congrArg (fun e => markerSet (ChannelEntry.inUse e)) (getD_replicate _ i ChannelEntry.empty)

theorem empty_pointUsed (i : Nat) : Tables.empty.pointUsed i = false :=
  congrArg (fun e => markerSet (PointEntry.inUse e)) (getD_replicate _ i PointEntry.empty)

theorem empty_breakerUsed (i : Nat) : Tables.empty.breakerUsed i = false :=
  congrArg (fun e => markerSet (BreakerEntry.inUse e)) (getD_replicate _ i BreakerEntry.empty)

/-! ## The reset state read back -/

@[simp] theorem reset_tables : State.reset.tables = .empty := rfl
@[simp] theorem reset_node (i : Nat) : State.reset.node i = none := join_replicate_none _ i
@[simp] theorem reset_channel (i : Nat) : State.reset.channel i = none := join_replicate_none _ i
@[simp] theorem reset_point (i : Nat) : State.reset.point i = none := join_replicate_none _ i
@[simp] theorem reset_position (b : Nat) : State.reset.position b = none := join_replicate_none _ b
@[simp] theorem reset_channelView (i : Nat) : State.reset.channelView i = none := join_replicate_none _ i
@[simp] theorem reset_pointView (i : Nat) : State.reset.pointView i = none := join_replicate_none _ i
@[simp] theorem reset_sectionRec (i : Nat) : State.reset.sectionRec i = .resetInactive := getD_replicate _ i _
@[simp] theorem reset_line (l : Nat) : State.reset.line l = .reset := getD_replicate _ l _
theorem reset_orders : State.reset.trip.orders = [] := rfl

/-- Every section is INACTIVE while the part is UNCONFIGURED (R81). -/
theorem reset_sectionInactive (i : Nat) : State.reset.sectionInactive i = true := by
  unfold State.sectionInactive
  rw [show State.reset.agent.mode = .unconfigured from rfl, decide_eq_true rfl, Bool.true_or, Bool.true_or]

/-! ## The invariants, block by block -/

/-- The RESET record stands in slot 0, and the other slots are free. -/
theorem reset_poolPartitioned : PoolPartitioned .reset := .refl _

/-- The CLAIM frame is being sent, and nothing is queued behind it. -/
theorem reset_queuesBounded : QueuesBounded .reset :=
  ⟨Nat.zero_le _, Nat.zero_le _, Nat.zero_le _, fun _ => ⟨rfl, rfl, rfl⟩⟩

theorem reset_tablesValidated : TablesValidated .reset := ⟨empty_validated, empty_validated⟩

theorem reset_lightBounded : LightBounded .reset := fun i r own => by
  rw [reset_channel] at own
  cases own

theorem reset_recordsMatchTables : RecordsMatchTables .reset := by
  refine ⟨fun i => ?_, fun i => ?_, fun i => ?_, fun b => ?_⟩
  · rw [reset_node, reset_tables, empty_nodeUsed, Option.isSome_none]
  · rw [reset_channel, reset_tables, empty_channelUsed, Option.isSome_none]
  · rw [reset_point, reset_tables, empty_pointUsed, Option.isSome_none]
  · rw [reset_position, reset_tables, empty_breakerUsed, Option.isSome_none]

theorem reset_viewCurrent : ViewCurrent .reset := by
  refine ⟨fun i => ?_, fun i => ?_⟩
  · rw [reset_channelView, reset_channel, Option.map_none]
  · rw [reset_pointView, reset_point, Option.map_none]

theorem reset_eligibleIsLit : EligibleIsLit .reset := by
  refine ⟨fun i r own => ?_, fun i v viewed => ?_⟩
  · rw [reset_channel] at own
    cases own
  · rw [reset_channelView] at viewed
    cases viewed

theorem reset_inactiveAsTabled : InactiveAsTabled .reset := fun i _ => by
  rw [reset_sectionRec]
  exact ⟨fun _ => reset_sectionInactive i, fun _ => rfl⟩

/-- No section is ARMED or LIGHT. -/
theorem reset_decisionsCurrent : DecisionsCurrent .reset := fun i _ => by
  rw [reset_sectionRec]
  exact ⟨nofun, nofun⟩

theorem reset_causesTripped : CausesTripped .reset := fun _ held => absurd held List.not_mem_nil

theorem reset_depthsBounded : DepthsBounded .reset := fun _ held => absurd held List.not_mem_nil

theorem reset_linesFollowOrders : LinesFollowOrders .reset := fun l _ => by
  rw [reset_line]
  rfl

theorem reset_waitingCopies : WaitingCopies .reset :=
  waitingCopies_of_none rfl fun _ ⟨_, held, _⟩ => absurd held List.not_mem_nil

theorem reset_cutNotQueued : CutNotQueued .reset := fun _ queued => absurd queued List.not_mem_nil

/-- CLAIMING has no break position. -/
theorem reset_cutSetCurrent : CutSetCurrent .reset := ⟨rfl, rfl⟩

/-- The one claim has started, and no timer of the Loop Port runs until its sending ends. -/
theorem reset_loopTimersInState : LoopTimersInState .reset :=
  ⟨fun _ => rfl, nofun, ⟨nofun, nofun⟩, ⟨nofun, nofun⟩, ⟨nofun, nofun⟩⟩

theorem reset_persistenceInLight : PersistenceInLight .reset := fun i running => by
  rw [reset_sectionRec] at running
  cases running

theorem reset_nodeTimersInState : NodeTimersInState .reset := fun n r own => by
  rw [reset_node] at own
  cases own

/-- No test runs, and no channel is TESTING, since none has a record. -/
theorem reset_oneTest : OneTest .reset := by
  refine ⟨⟨nofun, nofun⟩, ⟨fun _ => rfl, fun _ => rfl⟩, fun c => ⟨nofun, ?_⟩⟩
  rintro ⟨r, own, -⟩
  rw [reset_channel] at own
  cases own

theorem reset_exchangeBounded : ExchangeBounded .reset := ⟨Nat.zero_le _, ⟨nofun, nofun⟩⟩

/-- Settles O49: the reset state has no record, no order and no frame waiting, every section is INACTIVE, and its one claim has started. -/
theorem resetMeetsInvariants : Obligations.resetMeetsInvariants := by
  unfold Obligations.resetMeetsInvariants
  exact ⟨reset_poolPartitioned, reset_queuesBounded, reset_tablesValidated, reset_lightBounded, reset_recordsMatchTables,
    reset_viewCurrent, reset_eligibleIsLit, reset_inactiveAsTabled, reset_decisionsCurrent, quiet_of_idle rfl,
    oneOrder_of_none reset_orders, reset_causesTripped, reset_depthsBounded, reset_linesFollowOrders, reset_waitingCopies,
    cutFailed_of_none reset_orders, reset_cutNotQueued, reset_cutSetCurrent, reset_loopTimersInState, reset_persistenceInLight,
    orderTimers_of_none reset_orders, reset_nodeTimersInState, reset_oneTest, reset_exchangeBounded⟩

end Sys2Proof.Machine
end
